-- ==== Sys2Proof/Word.lean ====
section
/-! DEFINITION. The word types of the block: the 8-bit unit of both streams and the 16-bit command word. -/

namespace Sys2Proof

/-- One unit of the input or output stream, a byte or a character (20_memory.md R60, 00_scope.md R10). -/
abbrev Byte := BitVec 8

/-- One command word on the CMD port (30_encoding.md R80). -/
abbrev CommandWord := BitVec 16

/-- One of the two words the host can read, STATUS or CONFIG (10_state.md R30). -/
abbrev ViewWord := BitVec 32

end Sys2Proof
end

