-- ==== Sys2Proof/Syntax.lean ====
section
/-! DEFINITION. The commands of the block, one constructor per row of spec/opcode_table.json, and the names
of the two operand values DIR and MODE. Operand widths are in the types, so every term is a command. -/

namespace Sys2Proof

/-- DIR (10_state.md R29): 0 encode, 1 decode. -/
inductive Dir where
  | encode
  | decode
deriving DecidableEq, Repr

/-- MODE (10_state.md R29), less the reserved code 5, which MODE never holds. -/
inductive Mode where
  | base02
  | base08
  | base10
  | base16
  | base32
  | base85
  | base91
deriving DecidableEq, Repr

/-- The commands (30_encoding.md R82 to R86; spec/opcode_table.json). OPEN has a row for each of its
sixteen words, `E` for encode and `D` for decode; `Rsvd5` names the reserved mode. -/
inductive Instr where
  /-- OPEN.E.B02, word 0x1000 -/
  | openEB02
  /-- OPEN.E.B08, word 0x1001 -/
  | openEB08
  /-- OPEN.E.B10, word 0x1002 -/
  | openEB10
  /-- OPEN.E.B16, word 0x1003 -/
  | openEB16
  /-- OPEN.E.B32, word 0x1004 -/
  | openEB32
  /-- OPEN.E.RSVD5, word 0x1005 -/
  | openERsvd5
  /-- OPEN.E.B85, word 0x1006 -/
  | openEB85
  /-- OPEN.E.B91, word 0x1007 -/
  | openEB91
  /-- OPEN.D.B02, word 0x1008 -/
  | openDB02
  /-- OPEN.D.B08, word 0x1009 -/
  | openDB08
  /-- OPEN.D.B10, word 0x100A -/
  | openDB10
  /-- OPEN.D.B16, word 0x100B -/
  | openDB16
  /-- OPEN.D.B32, word 0x100C -/
  | openDB32
  /-- OPEN.D.RSVD5, word 0x100D -/
  | openDRsvd5
  /-- OPEN.D.B85, word 0x100E -/
  | openDB85
  /-- OPEN.D.B91, word 0x100F -/
  | openDB91
  /-- PUSH `byte`, words 0x2000 to 0x20FF -/
  | push (byte : Byte)
  /-- FLUSH, word 0x3000 -/
  | flush
  /-- SETLL `len`, words 0x4000 to 0x4FFF -/
  | setll (len : BitVec 12)
  /-- SETSEP `sel`, `byte`, words 0x5000 to 0x51FF -/
  | setsep (sel : BitVec 1) (byte : Byte)
deriving DecidableEq, Repr

end Sys2Proof
end

