-- ==== Sys2Proof/Decode.lean ====
section
/-! DEFINITION. Decoding a command word and encoding a command (30_encoding.md part A). -/

namespace Sys2Proof

/-- Why a word is no command (30_encoding.md R87). -/
inductive DecodeError where
  /-- the word matches none of R82 to R86 -/
  | illegalCommand
deriving DecidableEq, Repr

/-! ### Fields (30_encoding.md R81) -/

/-- `byte = cmd[7:0]`. -/
def fieldByte (w : CommandWord) : Byte := w.extractLsb' 0 8

/-- `len = cmd[11:0]`. -/
def fieldLen (w : CommandWord) : BitVec 12 := w.extractLsb' 0 12

/-- `sel = cmd[8]`. -/
def fieldSel (w : CommandWord) : BitVec 1 := w.extractLsb' 8 1

/-- `dir = cmd[3]` and `mode = cmd[2:0]` side by side, which name the row of OPEN. -/
def fieldDirMode (w : CommandWord) : BitVec 4 := w.extractLsb' 0 4

/-- The OPEN command with the given `dir` and `mode` bits (30_encoding.md R82 and the table after R86). -/
def openOf (dirMode : BitVec 4) : Instr :=
  match dirMode.toNat with
  | 0 => .openEB02
  | 1 => .openEB08
  | 2 => .openEB10
  | 3 => .openEB16
  | 4 => .openEB32
  | 5 => .openERsvd5
  | 6 => .openEB85
  | 7 => .openEB91
  | 8 => .openDB02
  | 9 => .openDB08
  | 10 => .openDB10
  | 11 => .openDB16
  | 12 => .openDB32
  | 13 => .openDRsvd5
  | 14 => .openDB85
  | _ => .openDB91

/-- The command of a word (30_encoding.md R82 to R87), total on all 65 536 words. -/
def decode (w : CommandWord) : Except DecodeError Instr :=
  if w &&& 0xFFF0#16 = 0x1000#16 then .ok (openOf (fieldDirMode w))
  else if w &&& 0xFF00#16 = 0x2000#16 then .ok (.push (fieldByte w))
  else if w = 0x3000#16 then .ok .flush
  else if w &&& 0xF000#16 = 0x4000#16 then .ok (.setll (fieldLen w))
  else if w &&& 0xFE00#16 = 0x5000#16 then .ok (.setsep (fieldSel w) (fieldByte w))
  else .error .illegalCommand

/-! ### Encoding, from the formats of 30_encoding.md R80 -/

/-- Format O: `op = 0001`, eight zero bits, `dir`, `mode`. -/
def formatO (dir : BitVec 1) (mode : BitVec 3) : CommandWord := 1#4 ++ 0#8 ++ dir ++ mode

/-- Format P: `op = 0010`, four zero bits, `byte`. -/
def formatP (byte : Byte) : CommandWord := 2#4 ++ 0#4 ++ byte

/-- Format F: `op = 0011`, twelve zero bits. -/
def formatF : CommandWord := 3#4 ++ 0#12

/-- Format L: `op = 0100`, `len`. -/
def formatL (len : BitVec 12) : CommandWord := 4#4 ++ len

/-- Format S: `op = 0101`, three zero bits, `sel`, `byte`. -/
def formatS (sel : BitVec 1) (byte : Byte) : CommandWord := 5#4 ++ 0#3 ++ sel ++ byte

/-- The word of a command. -/
def encode : Instr → CommandWord
  | .openEB02 => formatO 0 0
  | .openEB08 => formatO 0 1
  | .openEB10 => formatO 0 2
  | .openEB16 => formatO 0 3
  | .openEB32 => formatO 0 4
  | .openERsvd5 => formatO 0 5
  | .openEB85 => formatO 0 6
  | .openEB91 => formatO 0 7
  | .openDB02 => formatO 1 0
  | .openDB08 => formatO 1 1
  | .openDB10 => formatO 1 2
  | .openDB16 => formatO 1 3
  | .openDB32 => formatO 1 4
  | .openDRsvd5 => formatO 1 5
  | .openDB85 => formatO 1 6
  | .openDB91 => formatO 1 7
  | .push byte => formatP byte
  | .flush => formatF
  | .setll len => formatL len
  | .setsep sel byte => formatS sel byte

/-- The instruction the decoder reads from the low `nbits` bits of `w`, numbered as spec/opcode_table.json
numbers them; a command is one 16-bit word, so only bits 15:0 reach the decoder (assumption log 7). -/
def decodeTableWord (nbits w : Nat) : Option Instr :=
  match decode (BitVec.ofNat 16 (w % 2 ^ nbits)) with
  | .ok i => some i
  | .error _ => none

/-- OPEN with a direction and a mode by name, the assembler's `OPEN d,m` (30_encoding.md R88). -/
def openInstr : Dir → Mode → Instr
  | .encode, .base02 => .openEB02
  | .encode, .base08 => .openEB08
  | .encode, .base10 => .openEB10
  | .encode, .base16 => .openEB16
  | .encode, .base32 => .openEB32
  | .encode, .base85 => .openEB85
  | .encode, .base91 => .openEB91
  | .decode, .base02 => .openDB02
  | .decode, .base08 => .openDB08
  | .decode, .base10 => .openDB10
  | .decode, .base16 => .openDB16
  | .decode, .base32 => .openDB32
  | .decode, .base85 => .openDB85
  | .decode, .base91 => .openDB91

end Sys2Proof
end

