-- ==== Sys2Proof/Config.lean ====
section
/-! DEFINITION. The implementation parameters of 00_scope.md R5 to R9, as plain data.

The spec says a model takes them as arguments and that every rule holds for any legal value. The fixed
names of this row leave `exec` and `step` no argument for them, so a state carries them in its field `cfg`
(assumption log 3): a statement about every state is then a statement about every parameter value. -/

namespace Sys2Proof

/-- HEXCASE: the case of the letters the Base16 encoder writes (00_scope.md R7). -/
inductive HexCase where
  | upper
  | lower
deriving DecidableEq, Repr

/-- B85_OVERFLOW: what the Base85 decoder does with a sum of 2^32 or more (00_scope.md R8). -/
inductive OverflowPolicy where
  | wrap
  | fault
deriving DecidableEq, Repr

/-- RADIX_RANGE: what the Base08 and Base10 decoders do with a group above 255 (00_scope.md R9). -/
inductive RangePolicy where
  | fault
  | truncate
deriving DecidableEq, Repr

/-- SKIPX: for each mode the extra characters its decoder drops (00_scope.md R6). -/
structure SkipExtra where
  b02 : List Byte
  b08 : List Byte
  b10 : List Byte
  b16 : List Byte
  b32 : List Byte
  b85 : List Byte
  b91 : List Byte
deriving DecidableEq, Repr

/-- The implementation parameters. `b91Punct` is B91PUNCT, the 29 characters at indices 62 to 90 of the
Base91 table (00_scope.md R5, 30_encoding.md R95). -/
structure Config where
  b91Punct : Vector Byte 29
  skipx : SkipExtra
  hexCase : HexCase
  b85Overflow : OverflowPolicy
  radixRange : RangePolicy
deriving DecidableEq, Repr

/-- The default of B91PUNCT (00_scope.md R5, 30_encoding.md R96). PRESUMED: the spec itself takes it from
the published basE91 alphabet (93_implementation_defined.md G1); assumption log 4. -/
def Config.defaultB91Punct : Vector Byte 29 :=
  #v[0x21, 0x23, 0x24, 0x25, 0x26, 0x28, 0x29, 0x2A, 0x2B, 0x2C, 0x2E, 0x2F, 0x3A, 0x3B, 0x3C,
     0x3D, 0x3E, 0x3F, 0x40, 0x5B, 0x5D, 0x5E, 0x5F, 0x60, 0x7B, 0x7C, 0x7D, 0x7E, 0x22]

/-- The default of SKIPX: comma and hyphen for Base02 to Base32, nothing for Base85 and Base91
(00_scope.md R6). -/
def Config.defaultSkipx : SkipExtra where
  b02 := [0x2C, 0x2D]
  b08 := [0x2C, 0x2D]
  b10 := [0x2C, 0x2D]
  b16 := [0x2C, 0x2D]
  b32 := [0x2C, 0x2D]
  b85 := []
  b91 := []

/-- Every parameter at the default the spec gives it (00_scope.md R5 to R9). -/
def Config.default : Config where
  b91Punct := Config.defaultB91Punct
  skipx := Config.defaultSkipx
  hexCase := .upper
  b85Overflow := .wrap
  radixRange := .fault

end Sys2Proof
end

