-- ==== Sys2Proof/Machine/Operands.lean ====
section
/-! DEFINITION. The operand forms: the mode codes, the alphabets and their inverses (30_encoding.md part B),
the radix numerals (41_radix.md R140), the radix-85 digits (43_base85.md R180, R181) and the skip sets
(40_control.md R118). Arithmetic is on unbounded naturals (00_scope.md R10). -/

namespace Sys2Proof

/-! ### Direction and mode -/

/-- DIR as a bit (10_state.md R29). -/
def Dir.bit : Dir → BitVec 1
  | .encode => 0
  | .decode => 1

/-- MODE as its code (10_state.md R29). -/
def Mode.code : Mode → BitVec 3
  | .base02 => 0
  | .base08 => 1
  | .base10 => 2
  | .base16 => 3
  | .base32 => 4
  | .base85 => 6
  | .base91 => 7

/-- The mode a code names; code 5 is reserved (10_state.md R29, 00_scope.md R4). -/
def Mode.ofCode (code : BitVec 3) : Option Mode :=
  match code.toNat with
  | 0 => some .base02
  | 1 => some .base08
  | 2 => some .base10
  | 3 => some .base16
  | 4 => some .base32
  | 6 => some .base85
  | 7 => some .base91
  | _ => none

end Sys2Proof

namespace Sys2Proof.Machine

/-- A natural taken as an 8-bit unit, `v mod 2^8`. -/
def unit (v : Nat) : Byte := BitVec.ofNat 8 v

/-! ### Digits of the radix modes -/

/-- `DIGIT(d)` for a value 0 to 15 (30_encoding.md R92). -/
def digitChar (hexCase : HexCase) (d : Nat) : Byte :=
  if d < 10 then unit (0x30 + d)
  else
    match hexCase with
    | .upper => unit (0x41 + (d - 10))
    | .lower => unit (0x61 + (d - 10))

/-- `DVAL(c)` (30_encoding.md R92). -/
def digitValue (c : Byte) : Option Nat :=
  let n := c.toNat
  if 0x30 ≤ n ∧ n ≤ 0x39 then some (n - 0x30)
  else if 0x41 ≤ n ∧ n ≤ 0x46 then some (n - 0x41 + 10)
  else if 0x61 ≤ n ∧ n ≤ 0x66 then some (n - 0x61 + 10)
  else none

/-- The numeral of `b` in radix `r` at width `w`, most significant digit first (41_radix.md R140). -/
def numeral (r w b : Nat) : List Nat :=
  (List.range w).reverse.map fun k => b / r ^ k % r

/-! ### Base32 symbols -/

/-- `TAB32[i]` for i = 0 to 31 (30_encoding.md R93). -/
def tab32 (i : Nat) : Byte :=
  if i < 26 then unit (0x41 + i) else unit (0x32 + (i - 26))

/-- `IDX32(c)` (30_encoding.md R93). -/
def idx32 (c : Byte) : Option Nat :=
  let n := c.toNat
  if 0x41 ≤ n ∧ n ≤ 0x5A then some (n - 0x41)
  else if 0x32 ≤ n ∧ n ≤ 0x37 then some (n - 0x32 + 26)
  else none

/-- The padding character of Base32, `=` (30_encoding.md R91). -/
def padChar : Byte := 0x3D

/-! ### Base85 symbols -/

/-- The character of a digit 0 to 84 (30_encoding.md R94). -/
def char85 (d : Nat) : Byte := unit (33 + d)

/-- The digit of a character 33 to 117 (30_encoding.md R94). -/
def value85 (c : Byte) : Option Nat :=
  if 33 ≤ c.toNat ∧ c.toNat ≤ 117 then some (c.toNat - 33) else none

/-- The shorthand for four zero bytes, `z` (30_encoding.md R91). -/
def zChar : Byte := 0x7A

/-- `P85[k]` = 85^(4-k) for k = 0 to 4 (43_base85.md R180). -/
def pow85 (k : Nat) : Nat := 85 ^ (4 - k)

/-- `D85(w)`, the five radix-85 digits of a 32-bit word, most significant first (43_base85.md R181). -/
def digits85 (w : Nat) : List Nat :=
  (List.range 5).map fun k => w / pow85 k % 85

/-! ### Base91 symbols -/

/-- TAB91 as a list of its 91 entries: A-Z, a-z, 0-9, then B91PUNCT (30_encoding.md R95). -/
def alphabet91 (cfg : Config) : List Byte :=
  (List.range 26).map (fun i => unit (0x41 + i)) ++
    (List.range 26).map (fun i => unit (0x61 + i)) ++
    (List.range 10).map (fun i => unit (0x30 + i)) ++ cfg.b91Punct.toList

/-- `TAB91[i]` for i = 0 to 90 (30_encoding.md R95); no rule reads it at another index. -/
def tab91 (cfg : Config) (i : Nat) : Byte := (alphabet91 cfg).getD i 0

/-- `IDX91(c)`, the index of `c` in TAB91 (30_encoding.md R95). With a B91PUNCT that repeats a character,
which 00_scope.md R5 forbids, it is the least one (assumption log 6). -/
def idx91 (cfg : Config) (c : Byte) : Option Nat := (alphabet91 cfg).idxOf? c

/-! ### Membership and the skip filter -/

/-- Whether `c` is a symbol of the mode's alphabet (30_encoding.md R97). -/
def inAlphabet (cfg : Config) (m : Mode) (c : Byte) : Bool :=
  match m with
  | .base02 => (digitValue c).any (· < 2)
  | .base08 => (digitValue c).any (· < 8)
  | .base10 => (digitValue c).any (· < 10)
  | .base16 => (digitValue c).any (· < 16)
  | .base32 => (idx32 c).isSome
  | .base85 => (value85 c).isSome
  | .base91 => (idx91 cfg c).isSome

/-- NUL, TAB, LF, CR and space: skippable in every mode (40_control.md R118). -/
def commonSkip : List Byte := [0x00, 0x09, 0x0A, 0x0D, 0x20]

/-- `SKIPX[MODE]` (00_scope.md R6). -/
def skipExtra (cfg : Config) (m : Mode) : List Byte :=
  match m with
  | .base02 => cfg.skipx.b02
  | .base08 => cfg.skipx.b08
  | .base10 => cfg.skipx.b10
  | .base16 => cfg.skipx.b16
  | .base32 => cfg.skipx.b32
  | .base85 => cfg.skipx.b85
  | .base91 => cfg.skipx.b91

/-- `skip(c)` in mode `m` (40_control.md R118). -/
def skippable (cfg : Config) (m : Mode) (c : Byte) : Bool :=
  commonSkip.contains c || (skipExtra cfg m).contains c

end Sys2Proof.Machine
end

