-- ==== Sys2Proof/Machine/State.lean ====
section
/-! DEFINITION. The state of the block: every register of 10_state.md's summary table under its own name and
width, the record OUT, the parameters, and the host's pending transactions. -/

namespace Sys2Proof.Machine

/-- PHASE (10_state.md R31). -/
inductive Phase where
  /-- after reset; no invocation yet -/
  | idle
  /-- between an accepted OPEN and the FLUSH or fault that ends the invocation -/
  | active
  /-- after FLUSH completed without fault -/
  | done
  /-- the invocation ended in a DecodeFault -/
  | fault
deriving DecidableEq, Repr

/-- CECODE (60_exceptions.md R231): the code of the first refused command since reset. -/
inductive CmdErrorCode where
  | none
  | illegalCommand
  | badSequence
  | reservedMode
deriving DecidableEq, Repr

/-- FCODE (60_exceptions.md R220). Code 7 is never written and has no constructor. -/
inductive FaultCode where
  | none
  | invalidSymbol
  | b85StrayZ
  | b85SingleTail
  | b32MalformedTail
  | radixRange
  | b85Overflow
deriving DecidableEq, Repr

/-- One transaction of the host on an input port: a word on CMD or an assertion of RESET
(20_memory.md R62; a run is a list of these, 70_reset_and_hazards.md R253). -/
inductive PortEvent where
  | command (w : CommandWord)
  | reset
deriving DecidableEq, Repr

/-- A raised DecodeFault before it is recorded: `raise DecodeFault(code, ch)` of 60_exceptions.md R224. -/
structure RaisedFault where
  code : FaultCode
  char : Byte
deriving DecidableEq, Repr

/-- The state. Fields `acc` to `fchar` are the registers of 10_state.md's summary table; `out` is the record
of 20_memory.md R63; `cfg` and `port` are the model's own (assumption log 3 and 1). -/
structure State where
  /-- ACC, the bit accumulator (R20) -/
  acc : BitVec 32
  /-- CNT, the count of valid low bits of ACC in Base32 and Base91 (R21) -/
  cnt : BitVec 6
  /-- GCNT, the position inside a group (R22) -/
  gcnt : BitVec 3
  /-- LPOS, the line position (R23) -/
  lpos : BitVec 12
  /-- PEND, the pending first symbol of a Base91 pair (R24) -/
  pend : BitVec 7
  /-- PENDV, whether a first symbol is pending (R24) -/
  pendv : Bool
  /-- PADSEEN, whether the Base32 decoder has read a padding character (R25) -/
  padseen : Bool
  /-- DIR, the latched direction (R29) -/
  dir : Dir
  /-- MODE, the latched mode (R29) -/
  mode : Mode
  /-- LLEN, the line length, 0 for no wrapping (R27) -/
  llen : BitVec 12
  /-- SEP0, the first separator byte (R28) -/
  sep0 : Byte
  /-- SEP1, the second separator byte (R28) -/
  sep1 : Byte
  /-- SEPLEN, the number of separator bytes in use (R28) -/
  seplen : BitVec 2
  /-- PHASE (R31) -/
  phase : Phase
  /-- CMDERR, sticky (R32) -/
  cmderr : Bool
  /-- CECODE (R30) -/
  cecode : CmdErrorCode
  /-- FSTICKY, sticky (R32) -/
  fsticky : Bool
  /-- FCODE (R30) -/
  fcode : FaultCode
  /-- FCHAR, the offending character (R30) -/
  fchar : Byte
  /-- OUT, every unit emitted since reset, oldest first (20_memory.md R63) -/
  out : List Byte
  /-- the implementation parameters (00_scope.md R5 to R9); no step writes them -/
  cfg : Config
  /-- the host's transactions still to come, the next one first -/
  port : List PortEvent
deriving DecidableEq, Repr

/-- Why a step could stop with a fault: there is no such reason. A DecodeFault and a CmdError are effects the
spec describes and after which the block goes on (60_exceptions.md R224, R230), so both are next states, and
the ports cannot fail (20_memory.md R66). Nobody raises this; safe (assumption log 5). -/
inductive Fault : Type where
deriving DecidableEq, Repr

/-- Why a step could be refused. -/
inductive Refusal : Type where
  /-- Raised by an arm of `exec` whose instruction has no meaning yet; safe. No arm does so in this model. -/
  | notModelled (mnemonic : String)
deriving DecidableEq, Repr

/-- The block right after reset (70_reset_and_hazards.md R250, 10_state.md R40 and R41), with the default
parameters (00_scope.md R5 to R9) and a host that has nothing to issue (assumption log 1). -/
def State.reset : State where
  acc := 0
  cnt := 0
  gcnt := 0
  lpos := 0
  pend := 0
  pendv := false
  padseen := false
  dir := .encode
  mode := .base02
  llen := 0
  sep0 := 0x0A
  sep1 := 0x00
  seplen := 1
  phase := .idle
  cmderr := false
  cecode := .none
  fsticky := false
  fcode := .none
  fchar := 0
  out := []
  cfg := Config.default
  port := []

end Sys2Proof.Machine
end

