-- ==== Sys2Proof/Machine/Ops.lean ====
section
/-! DEFINITION. The named operations over the registers, OUT and the input ports: emission (40_control.md R120,
R121), taking a DecodeFault and a CmdError (60_exceptions.md R224, R230), starting an invocation, which is
also how FAULT is left (R229), RESET (70_reset_and_hazards.md R250) and taking the host's next transaction.
A value is reduced to a register's width where it is assigned to it (00_scope.md R10). -/

namespace Sys2Proof.Machine

/-! ### Emission -/

/-- The separator in use: SEP0, or SEP0 then SEP1 (10_state.md R28). -/
def State.separator (s : State) : List Byte :=
  if s.seplen = 2 then [s.sep0, s.sep1] else [s.sep0]

/-- `EmitText(c)`: append through the line framer (40_control.md R120). -/
def State.emitText (s : State) (c : Byte) : State :=
  if s.llen = 0 then { s with out := s.out ++ [c] }
  else if s.lpos + 1 = s.llen then { s with out := s.out ++ [c] ++ s.separator, lpos := 0 }
  else { s with out := s.out ++ [c], lpos := s.lpos + 1 }

/-- `EmitText` of each character in turn. -/
def State.emitTexts (s : State) (cs : List Byte) : State := cs.foldl State.emitText s

/-- `EmitByte(b)`: append with no framing (40_control.md R121). -/
def State.emitByte (s : State) (b : Byte) : State := { s with out := s.out ++ [b] }

/-- `EmitByte` of each byte in turn. -/
def State.emitBytes (s : State) (bs : List Byte) : State := bs.foldl State.emitByte s

/-! ### Taking an exception, and leaving it -/

/-- `raise DecodeFault(code, ch)` in the state BEFORE the faulting command, so that nothing the command wrote
or emitted survives (60_exceptions.md R224). -/
def raiseDecodeFault (f : RaisedFault) (s : State) : State :=
  { s with fcode := f.code, fchar := f.char, fsticky := true, phase := .fault }

/-- `raise CmdError(code)`: only the sticky record changes, and the first code is kept (60_exceptions.md R230). -/
def raiseCmdError (code : CmdErrorCode) (s : State) : State :=
  { s with cecode := if s.cmderr then s.cecode else code, cmderr := true }

/-- Finish a command that either completes in a new state or raises a DecodeFault; a fault is taken in the
state `s` before the command (60_exceptions.md R224). -/
def settle (s : State) (r : Except RaisedFault State) : State :=
  match r with
  | .ok t => t
  | .error f => raiseDecodeFault f s

/-- What an accepted OPEN writes (40_control.md R111). It is the way out of FAULT: there is no return
instruction (60_exceptions.md R229). -/
def startInvocation (d : Dir) (m : Mode) (s : State) : State :=
  { s with
    dir := d, mode := m
    acc := 0, cnt := 0, gcnt := 0, lpos := 0
    pend := 0, pendv := false, padseen := false
    fcode := .none, fchar := 0
    phase := .active }

/-- Run a command that is allowed only outside ACTIVE (40_control.md R116). -/
def outsideActive (s : State) (run : State → State) : State :=
  if s.phase = .active then raiseCmdError .badSequence s else run s

/-- Run a command that is allowed only in ACTIVE (40_control.md R116). -/
def insideActive (s : State) (run : State → State) : State :=
  if s.phase = .active then run s else raiseCmdError .badSequence s

/-! ### The input ports -/

/-- RESET (70_reset_and_hazards.md R250): every register and OUT at their reset values. The parameters and the
host's later transactions are not the block's to reset (assumption log 2 and 3). -/
def applyReset (s : State) : State := { State.reset with cfg := s.cfg, port := s.port }

/-- Take the host's next transaction off the port: the transaction, and the state without it. A command word is
consumed when it executes and is never stored (20_memory.md R75). -/
def State.nextEvent (s : State) : Option (PortEvent × State) :=
  match s.port with
  | [] => none
  | e :: rest => some (e, { s with port := rest })

/-- The host presents the command word `w` as its very next transaction (assumption log 1). -/
def State.present (s : State) (w : CommandWord) : State := { s with port := .command w :: s.port }

/-- The 16-bit word whose bits are the low `nbits` bits of `w`, every bit above them zero. -/
def tableWord (nbits w : Nat) : CommandWord := BitVec.ofNat 16 (w % 2 ^ nbits)

/-- A word that is no command raises CmdError(ILLEGAL_COMMAND) in every PHASE (30_encoding.md R87). -/
def execIllegal (s : State) : State := raiseCmdError .illegalCommand s

end Sys2Proof.Machine
end

