-- ==== Sys2Proof/Machine/Control.lean ====
section
/-! DEFINITION. The control commands OPEN, SETLL and SETSEP (40_control.md R111 to R113). -/

namespace Sys2Proof.Machine

/-- OPEN `dir`, `mode` (40_control.md R111): the sequence check comes before the reserved-mode check
(60_exceptions.md R232). -/
def openCommand (d : Dir) (code : BitVec 3) (s : State) : State :=
  outsideActive s fun s =>
    match Mode.ofCode code with
    | none => raiseCmdError .reservedMode s
    | some m => startInvocation d m s

/-- OPEN.E.B02 (R111). -/
def execOpenEB02 (s : State) : Host.Outcome State Fault Refusal := .next (openCommand .encode 0 s)

/-- OPEN.E.B08 (R111). -/
def execOpenEB08 (s : State) : Host.Outcome State Fault Refusal := .next (openCommand .encode 1 s)

/-- OPEN.E.B10 (R111). -/
def execOpenEB10 (s : State) : Host.Outcome State Fault Refusal := .next (openCommand .encode 2 s)

/-- OPEN.E.B16 (R111). -/
def execOpenEB16 (s : State) : Host.Outcome State Fault Refusal := .next (openCommand .encode 3 s)

/-- OPEN.E.B32 (R111). -/
def execOpenEB32 (s : State) : Host.Outcome State Fault Refusal := .next (openCommand .encode 4 s)

/-- OPEN.E.RSVD5 (R111): the reserved mode is refused with RESERVED_MODE (00_scope.md R4). -/
def execOpenERsvd5 (s : State) : Host.Outcome State Fault Refusal := .next (openCommand .encode 5 s)

/-- OPEN.E.B85 (R111). -/
def execOpenEB85 (s : State) : Host.Outcome State Fault Refusal := .next (openCommand .encode 6 s)

/-- OPEN.E.B91 (R111). -/
def execOpenEB91 (s : State) : Host.Outcome State Fault Refusal := .next (openCommand .encode 7 s)

/-- OPEN.D.B02 (R111). -/
def execOpenDB02 (s : State) : Host.Outcome State Fault Refusal := .next (openCommand .decode 0 s)

/-- OPEN.D.B08 (R111). -/
def execOpenDB08 (s : State) : Host.Outcome State Fault Refusal := .next (openCommand .decode 1 s)

/-- OPEN.D.B10 (R111). -/
def execOpenDB10 (s : State) : Host.Outcome State Fault Refusal := .next (openCommand .decode 2 s)

/-- OPEN.D.B16 (R111). -/
def execOpenDB16 (s : State) : Host.Outcome State Fault Refusal := .next (openCommand .decode 3 s)

/-- OPEN.D.B32 (R111). -/
def execOpenDB32 (s : State) : Host.Outcome State Fault Refusal := .next (openCommand .decode 4 s)

/-- OPEN.D.RSVD5 (R111): the reserved mode is refused with RESERVED_MODE (00_scope.md R4). -/
def execOpenDRsvd5 (s : State) : Host.Outcome State Fault Refusal := .next (openCommand .decode 5 s)

/-- OPEN.D.B85 (R111). -/
def execOpenDB85 (s : State) : Host.Outcome State Fault Refusal := .next (openCommand .decode 6 s)

/-- OPEN.D.B91 (R111). -/
def execOpenDB91 (s : State) : Host.Outcome State Fault Refusal := .next (openCommand .decode 7 s)

/-- SETLL `len` (40_control.md R112). -/
def execSetll (len : BitVec 12) (s : State) : Host.Outcome State Fault Refusal :=
  .next (outsideActive s fun s => { s with llen := len })

/-- SETSEP `sel`, `byte` (40_control.md R113). -/
def execSetsep (sel : BitVec 1) (byte : Byte) (s : State) : Host.Outcome State Fault Refusal :=
  .next (outsideActive s fun s =>
    if sel = 0 then { s with sep0 := byte, seplen := 1 } else { s with sep1 := byte, seplen := 2 })

end Sys2Proof.Machine
end

