-- ==== Sys2Proof/Machine/Base32.lean ====
section
/-! DEFINITION. Base32 with its padding validator (42_base32.md). -/

namespace Sys2Proof.Machine

/-- The loop `while CNT >= 5` of 42_base32.md R161. Each turn takes 5 from CNT, so CNT itself is fuel enough. -/
def drainSymbols32 : Nat → State → State
  | 0, s => s
  | fuel + 1, s =>
    if 5 ≤ s.cnt.toNat then
      let t := s.emitText (tab32 ((s.acc.toNat >>> (s.cnt.toNat - 5)) &&& 31))
      drainSymbols32 fuel { t with cnt := t.cnt - 5, gcnt := t.gcnt + 1 }
    else s

/-- PUSH.E.B32 (42_base32.md R161). -/
def pushEncodeBase32 (b : Byte) (s : State) : State :=
  let s1 := { s with acc := BitVec.ofNat 32 (s.acc.toNat <<< 8 ||| b.toNat), cnt := s.cnt + 8 }
  let s2 := drainSymbols32 s1.cnt.toNat s1
  { s2 with acc := BitVec.ofNat 32 (s2.acc.toNat &&& (1 <<< s2.cnt.toNat - 1)) }

/-- The final partial group of 42_base32.md R163, zero-filled on the right. -/
def finalSymbol32 (s : State) : State :=
  if 0 < s.cnt.toNat then
    let t := s.emitText (tab32 ((s.acc.toNat <<< (5 - s.cnt.toNat)) &&& 31))
    { t with gcnt := t.gcnt + 1, acc := 0, cnt := 0 }
  else s

/-- The loop `while GCNT != 0` of 42_base32.md R163. GCNT is counted modulo 8, so 8 is fuel enough. -/
def padToEight : Nat → State → State
  | 0, s => s
  | fuel + 1, s =>
    if s.gcnt = 0 then s
    else
      let t := s.emitText padChar
      padToEight fuel { t with gcnt := t.gcnt + 1 }

/-- FLUSH.E.B32 (42_base32.md R163). -/
def flushEncodeBase32 (s : State) : State := padToEight 8 (finalSymbol32 s)

/-- PUSH.D.B32 (42_base32.md R164). -/
def pushDecodeBase32 (c : Byte) (s : State) : Except RaisedFault State :=
  if c = padChar then .ok { s with padseen := true }
  else
    match idx32 c with
    | none => .error ⟨.invalidSymbol, c⟩
    | some d =>
      let s1 := { s with acc := BitVec.ofNat 32 (s.acc.toNat <<< 5 ||| d), cnt := s.cnt + 5 }
      let s2 :=
        if 8 ≤ s1.cnt.toNat then
          { s1.emitByte (unit ((s1.acc.toNat >>> (s1.cnt.toNat - 8)) &&& 0xFF)) with cnt := s1.cnt - 8 }
        else s1
      .ok { s2 with acc := BitVec.ofNat 32 (s2.acc.toNat &&& (1 <<< s2.cnt.toNat - 1)) }

/-- FLUSH.D.B32, the padding validator (42_base32.md R167). -/
def flushDecodeBase32 (s : State) : Except RaisedFault State :=
  if 0 < s.cnt.toNat ∧ s.acc ≠ 0 then .error ⟨.b32MalformedTail, 0⟩
  else .ok { s with acc := 0, cnt := 0 }

end Sys2Proof.Machine
end

