-- ==== Sys2Proof/Machine/Base85.lean ====
section
/-! DEFINITION. The Base85 group packer (43_base85.md). -/

namespace Sys2Proof.Machine

/-- PUSH.E.B85 (43_base85.md R182). -/
def pushEncodeBase85 (b : Byte) (s : State) : State :=
  let s1 := { s with acc := BitVec.ofNat 32 (s.acc.toNat <<< 8 ||| b.toNat), gcnt := s.gcnt + 1 }
  if s1.gcnt = 4 then
    let t := if s1.acc = 0 then s1.emitText zChar
      else s1.emitTexts ((digits85 s1.acc.toNat).map char85)
    { t with acc := 0, gcnt := 0 }
  else s1

/-- FLUSH.E.B85 (43_base85.md R183). -/
def flushEncodeBase85 (s : State) : State :=
  if 0 < s.gcnt.toNat then
    let w := s.acc.toNat <<< (8 * (4 - s.gcnt.toNat))
    let t := s.emitTexts (((digits85 w).take (s.gcnt.toNat + 1)).map char85)
    { t with acc := 0, gcnt := 0 }
  else s

/-- `ACC <- v` of the Base85 decoder under B85_OVERFLOW: modulo 2^32, or DecodeFault when `v` is 2^32 or more
(43_base85.md R186). -/
def assignAcc85 (v : Nat) (c : Byte) (s : State) : Except RaisedFault State :=
  if 2 ^ 32 ≤ v ∧ s.cfg.b85Overflow = .fault then .error ⟨.b85Overflow, c⟩
  else .ok { s with acc := BitVec.ofNat 32 v }

/-- ACC as its four bytes, bits 31:24 first (20_memory.md R69). -/
def accBytes (s : State) : List Byte :=
  [s.acc.extractLsb' 24 8, s.acc.extractLsb' 16 8, s.acc.extractLsb' 8 8, s.acc.extractLsb' 0 8]

/-- PUSH.D.B85 (43_base85.md R185). -/
def pushDecodeBase85 (c : Byte) (s : State) : Except RaisedFault State :=
  if c = zChar then
    if s.gcnt = 0 then .ok (s.emitBytes [0, 0, 0, 0]) else .error ⟨.b85StrayZ, c⟩
  else
    match value85 c with
    | none => .error ⟨.invalidSymbol, c⟩
    | some d =>
      match assignAcc85 (s.acc.toNat + d * pow85 s.gcnt.toNat) c s with
      | .error f => .error f
      | .ok t =>
        let t1 := { t with gcnt := t.gcnt + 1 }
        if t1.gcnt = 5 then .ok { t1.emitBytes (accBytes t1) with acc := 0, gcnt := 0 } else .ok t1

/-- FLUSH.D.B85 (43_base85.md R188). -/
def flushDecodeBase85 (s : State) : Except RaisedFault State :=
  if s.gcnt = 1 then .error ⟨.b85SingleTail, 0⟩
  else if 2 ≤ s.gcnt.toNat then
    match assignAcc85 (s.acc.toNat + pow85 (s.gcnt.toNat - 1)) 0 s with
    | .error f => .error f
    | .ok t => .ok { t.emitBytes ((accBytes t).take (min (t.gcnt.toNat - 1) 3)) with acc := 0, gcnt := 0 }
  else .ok s

end Sys2Proof.Machine
end

