-- ==== Sys2Proof/Machine/Base91.lean ====
section
/-! DEFINITION. The Base91 variable-width packer (44_base91.md). -/

namespace Sys2Proof.Machine

/-- How many payload bits a value carries: 13 when its low 13 bits exceed 88, else 14 (44_base91.md R200). -/
def payloadBits (v : Nat) : Nat := if 88 < v &&& 8191 then 13 else 14

/-- PUSH.E.B91 (44_base91.md R201). -/
def pushEncodeBase91 (b : Byte) (s : State) : State :=
  let s1 := { s with acc := BitVec.ofNat 32 (s.acc.toNat ||| b.toNat <<< s.cnt.toNat), cnt := s.cnt + 8 }
  if 14 ≤ s1.cnt.toNat then
    let n := payloadBits s1.acc.toNat
    let ch := s1.acc.toNat &&& (1 <<< n - 1)
    let s2 := { s1 with acc := BitVec.ofNat 32 (s1.acc.toNat >>> n), cnt := s1.cnt - BitVec.ofNat 6 n }
    s2.emitTexts [tab91 s.cfg (ch % 91), tab91 s.cfg (ch / 91)]
  else s1

/-- FLUSH.E.B91 (44_base91.md R202). -/
def flushEncodeBase91 (s : State) : State :=
  if 0 < s.cnt.toNat then
    let t := s.emitText (tab91 s.cfg (s.acc.toNat % 91))
    let t1 := if 8 ≤ s.cnt.toNat ∨ 91 ≤ s.acc.toNat then t.emitText (tab91 s.cfg (s.acc.toNat / 91)) else t
    { t1 with acc := 0, cnt := 0 }
  else s

/-- The loop `while CNT > 7` of 44_base91.md R204. Each turn takes 8 from CNT, so CNT itself is fuel enough. -/
def drainBytes91 : Nat → State → State
  | 0, s => s
  | fuel + 1, s =>
    if 7 < s.cnt.toNat then
      let t := s.emitByte (unit (s.acc.toNat &&& 0xFF))
      drainBytes91 fuel { t with acc := BitVec.ofNat 32 (t.acc.toNat >>> 8), cnt := t.cnt - 8 }
    else s

/-- PUSH.D.B91 (44_base91.md R204). -/
def pushDecodeBase91 (c : Byte) (s : State) : Except RaisedFault State :=
  match idx91 s.cfg c with
  | none => .error ⟨.invalidSymbol, c⟩
  | some d =>
    if s.pendv then
      let v := s.pend.toNat + d * 91
      let s1 := { s with
        pend := 0, pendv := false
        acc := BitVec.ofNat 32 (s.acc.toNat ||| v <<< s.cnt.toNat)
        cnt := s.cnt + BitVec.ofNat 6 (payloadBits v) }
      .ok (drainBytes91 s1.cnt.toNat s1)
    else .ok { s with pend := BitVec.ofNat 7 d, pendv := true }

/-- FLUSH.D.B91 (44_base91.md R206). -/
def flushDecodeBase91 (s : State) : Except RaisedFault State :=
  let t :=
    if s.pendv then
      { s.emitByte (unit ((s.acc.toNat ||| s.pend.toNat <<< s.cnt.toNat) &&& 0xFF)) with pend := 0, pendv := false }
    else s
  .ok { t with acc := 0, cnt := 0 }

end Sys2Proof.Machine
end

