-- ==== Sys2Proof/Machine/Radix.lean ====
section
/-! DEFINITION. Base02, Base08, Base10 and Base16 (41_radix.md). PHASE, and in decode direction the skip filter,
have been seen to by PUSH and FLUSH (40_control.md R114, R115). -/

namespace Sys2Proof.Machine

/-- Write a byte as its numeral in radix `r` at width `w` (41_radix.md R140). -/
def radixEncode (r w : Nat) (b : Byte) (s : State) : State :=
  s.emitTexts ((numeral r w b.toNat).map (digitChar s.cfg.hexCase))

/-- PUSH.E.B02 (41_radix.md R141). -/
def pushEncodeBase02 (b : Byte) (s : State) : State := radixEncode 2 8 b s

/-- PUSH.E.B08 (41_radix.md R142). -/
def pushEncodeBase08 (b : Byte) (s : State) : State := radixEncode 8 3 b s

/-- PUSH.E.B10 (41_radix.md R143). -/
def pushEncodeBase10 (b : Byte) (s : State) : State := radixEncode 10 3 b s

/-- PUSH.E.B16 (41_radix.md R144). -/
def pushEncodeBase16 (b : Byte) (s : State) : State := radixEncode 16 2 b s

/-- FLUSH.E of the four radix modes (41_radix.md R150): there is never a tail. -/
def flushEncodeRadix (s : State) : State := s

/-- `RadixDecode(R, W, c)` (41_radix.md R151). -/
def radixDecode (r w : Nat) (c : Byte) (s : State) : Except RaisedFault State :=
  match digitValue c with
  | none => .error ⟨.invalidSymbol, c⟩
  | some d =>
    if r ≤ d then .error ⟨.invalidSymbol, c⟩
    else
      let v := s.acc.toNat * r + d
      if s.gcnt.toNat + 1 = w then
        if 255 < v ∧ s.cfg.radixRange = .fault then .error ⟨.radixRange, c⟩
        else .ok { s.emitByte (unit (v % 256)) with acc := 0, gcnt := 0 }
      else .ok { s with acc := BitVec.ofNat 32 v, gcnt := s.gcnt + 1 }

/-- PUSH.D.B02 (41_radix.md R145). -/
def pushDecodeBase02 (c : Byte) (s : State) : Except RaisedFault State := radixDecode 2 8 c s

/-- PUSH.D.B08 (41_radix.md R146). -/
def pushDecodeBase08 (c : Byte) (s : State) : Except RaisedFault State := radixDecode 8 3 c s

/-- PUSH.D.B10 (41_radix.md R147). -/
def pushDecodeBase10 (c : Byte) (s : State) : Except RaisedFault State := radixDecode 10 3 c s

/-- PUSH.D.B16 (41_radix.md R148). -/
def pushDecodeBase16 (c : Byte) (s : State) : Except RaisedFault State := radixDecode 16 2 c s

/-- FLUSH.D of the four radix modes (41_radix.md R149): an incomplete group is dropped without a fault. -/
def flushDecodeRadix (s : State) : Except RaisedFault State := .ok { s with acc := 0, gcnt := 0 }

end Sys2Proof.Machine
end

