-- ==== Sys2Proof/Machine/Stream.lean ====
section
/-! DEFINITION. PUSH and FLUSH and their dispatch on DIR and MODE (40_control.md R114, R115). -/

namespace Sys2Proof.Machine

/-- The encode column of 40_control.md R114's table. -/
def pushEncode (b : Byte) (s : State) : State :=
  match s.mode with
  | .base02 => pushEncodeBase02 b s
  | .base08 => pushEncodeBase08 b s
  | .base10 => pushEncodeBase10 b s
  | .base16 => pushEncodeBase16 b s
  | .base32 => pushEncodeBase32 b s
  | .base85 => pushEncodeBase85 b s
  | .base91 => pushEncodeBase91 b s

/-- The decode column of 40_control.md R114's table. -/
def pushDecode (c : Byte) (s : State) : Except RaisedFault State :=
  match s.mode with
  | .base02 => pushDecodeBase02 c s
  | .base08 => pushDecodeBase08 c s
  | .base10 => pushDecodeBase10 c s
  | .base16 => pushDecodeBase16 c s
  | .base32 => pushDecodeBase32 c s
  | .base85 => pushDecodeBase85 c s
  | .base91 => pushDecodeBase91 c s

/-- A decode PUSH: nothing after Base32 padding, then the skip filter, then the mode's rule
(40_control.md R114, R119). -/
def pushFiltered (c : Byte) (s : State) : State :=
  if s.mode = .base32 ∧ s.padseen = true then s
  else if skippable s.cfg s.mode c then s
  else settle s (pushDecode c s)

/-- PUSH `byte` (40_control.md R114). -/
def execPush (byte : Byte) (s : State) : Host.Outcome State Fault Refusal :=
  .next (insideActive s fun s =>
    match s.dir with
    | .encode => pushEncode byte s
    | .decode => pushFiltered byte s)

/-- The encode column of 40_control.md R115's table. -/
def flushEncode (s : State) : State :=
  match s.mode with
  | .base02 => flushEncodeRadix s
  | .base08 => flushEncodeRadix s
  | .base10 => flushEncodeRadix s
  | .base16 => flushEncodeRadix s
  | .base32 => flushEncodeBase32 s
  | .base85 => flushEncodeBase85 s
  | .base91 => flushEncodeBase91 s

/-- The decode column of 40_control.md R115's table. -/
def flushDecode (s : State) : Except RaisedFault State :=
  match s.mode with
  | .base02 => flushDecodeRadix s
  | .base08 => flushDecodeRadix s
  | .base10 => flushDecodeRadix s
  | .base16 => flushDecodeRadix s
  | .base32 => flushDecodeBase32 s
  | .base85 => flushDecodeBase85 s
  | .base91 => flushDecodeBase91 s

/-- The rule of DIR and MODE, then `PHASE <- DONE`, which a DecodeFault does not reach (40_control.md R115). -/
def flushRule (s : State) : Except RaisedFault State :=
  match s.dir with
  | .encode => .ok { flushEncode s with phase := .done }
  | .decode =>
    match flushDecode s with
    | .ok t => .ok { t with phase := .done }
    | .error f => .error f

/-- FLUSH (40_control.md R115). -/
def execFlush (s : State) : Host.Outcome State Fault Refusal :=
  .next (insideActive s fun s => settle s (flushRule s))

end Sys2Proof.Machine
end

