-- ==== Sys2Proof/Machine/Dispatch.lean ====
section
/-! DEFINITION. The meaning of every command, one arm per constructor of `Instr`. -/

namespace Sys2Proof.Machine

def exec (i : Instr) (s : State) : Host.Outcome State Fault Refusal :=
  match i with
  | .openEB02 => Sys2Proof.Machine.execOpenEB02 s
  | .openEB08 => Sys2Proof.Machine.execOpenEB08 s
  | .openEB10 => Sys2Proof.Machine.execOpenEB10 s
  | .openEB16 => Sys2Proof.Machine.execOpenEB16 s
  | .openEB32 => Sys2Proof.Machine.execOpenEB32 s
  | .openERsvd5 => Sys2Proof.Machine.execOpenERsvd5 s
  | .openEB85 => Sys2Proof.Machine.execOpenEB85 s
  | .openEB91 => Sys2Proof.Machine.execOpenEB91 s
  | .openDB02 => Sys2Proof.Machine.execOpenDB02 s
  | .openDB08 => Sys2Proof.Machine.execOpenDB08 s
  | .openDB10 => Sys2Proof.Machine.execOpenDB10 s
  | .openDB16 => Sys2Proof.Machine.execOpenDB16 s
  | .openDB32 => Sys2Proof.Machine.execOpenDB32 s
  | .openDRsvd5 => Sys2Proof.Machine.execOpenDRsvd5 s
  | .openDB85 => Sys2Proof.Machine.execOpenDB85 s
  | .openDB91 => Sys2Proof.Machine.execOpenDB91 s
  | .push byte => Sys2Proof.Machine.execPush byte s
  | .flush => Sys2Proof.Machine.execFlush s
  | .setll len => Sys2Proof.Machine.execSetll len s
  | .setsep sel byte => Sys2Proof.Machine.execSetsep sel byte s

end Sys2Proof.Machine
end

