-- ==== Sys2Proof/Machine/Step.lean ====
section
/-! DEFINITION. One step of the block: the host's next transaction, taken to its end (20_memory.md R64). -/

namespace Sys2Proof.Machine

/-- One step. RESET applies 70_reset_and_hazards.md R250; a command word is decoded, then executed, and a word
that is no command is refused (40_control.md R110); with no transaction pending the block waits and nothing
changes (R253). -/
def step (s : State) : Host.Outcome State Fault Refusal :=
  match s.nextEvent with
  | none => .next s
  | some (.reset, t) => .next (applyReset t)
  | some (.command w, t) =>
    match decode w with
    | .error .illegalCommand => .next (execIllegal t)
    | .ok i => exec i t

/-- `s` with the host presenting the low `nbits` bits of `w` as its next command word (assumption log 1 and 7). -/
def State.withFetchWord (s : State) (nbits w : Nat) : State := s.present (tableWord nbits w)

end Sys2Proof.Machine
end

