-- ==== Sys2Proof/Machine/Assembler.lean ====
section
/-! DEFINITION. The assembler's spelling of the commands and its pseudo-commands (30_encoding.md R88). -/

namespace Sys2Proof.Machine

/-- The direction letter of `OPEN d,m`. -/
def Dir.letter : Dir → String
  | .encode => "E"
  | .decode => "D"

/-- The mode name of `OPEN d,m`. -/
def Mode.name : Mode → String
  | .base02 => "B02"
  | .base08 => "B08"
  | .base10 => "B10"
  | .base16 => "B16"
  | .base32 => "B32"
  | .base85 => "B85"
  | .base91 => "B91"

/-- `OPEN d,m` spelled out. -/
def openText (d : Dir) (m : Mode) : String := "OPEN " ++ Dir.letter d ++ "," ++ Mode.name m

/-- The assembler line of a command, numbers in decimal; the two reserved-mode words have none
(30_encoding.md R88). -/
def assemblerLine : Instr → Option String
  | .openEB02 => some (openText .encode .base02)
  | .openEB08 => some (openText .encode .base08)
  | .openEB10 => some (openText .encode .base10)
  | .openEB16 => some (openText .encode .base16)
  | .openEB32 => some (openText .encode .base32)
  | .openERsvd5 => none
  | .openEB85 => some (openText .encode .base85)
  | .openEB91 => some (openText .encode .base91)
  | .openDB02 => some (openText .decode .base02)
  | .openDB08 => some (openText .decode .base08)
  | .openDB10 => some (openText .decode .base10)
  | .openDB16 => some (openText .decode .base16)
  | .openDB32 => some (openText .decode .base32)
  | .openDRsvd5 => none
  | .openDB85 => some (openText .decode .base85)
  | .openDB91 => some (openText .decode .base91)
  | .push byte => some ("PUSH " ++ toString byte.toNat)
  | .flush => some "FLUSH"
  | .setll len => some ("SETLL " ++ toString len.toNat)
  | .setsep sel byte => some ("SETSEP " ++ toString sel.toNat ++ "," ++ toString byte.toNat)

/-- The value of a hexadecimal digit of the assembler's text, in either case. -/
def hexValue (c : Char) : Option Nat :=
  if '0' ≤ c ∧ c ≤ '9' then some (c.toNat - '0'.toNat)
  else if 'a' ≤ c ∧ c ≤ 'f' then some (c.toNat - 'a'.toNat + 10)
  else if 'A' ≤ c ∧ c ≤ 'F' then some (c.toNat - 'A'.toNat + 10)
  else none

/-- The numeral `digits` in base `base` read on from `value`. -/
def readDigits (base : Nat) : Nat → List Char → Option Nat
  | value, [] => some value
  | value, c :: rest =>
    match hexValue c with
    | some d => if d < base then readDigits base (value * base + d) rest else none
    | none => none

/-- A number operand: `0x54`, `84`, or a quoted character `'T'` (R88). -/
def operandValue : List Char → Option Nat
  | [] => none
  | ['\'', c, '\''] => some c.toNat
  | '0' :: 'x' :: d :: rest => readDigits 16 0 (d :: rest)
  | c :: rest => readDigits 10 0 (c :: rest)

/-- The units of the text between the quotes of `PUSHS`, its escapes replaced (R88). -/
def unquote : List Char → Option (List Byte)
  | [] => some []
  | '\\' :: 'n' :: rest => (unquote rest).map (0x0A :: ·)
  | '\\' :: 'r' :: rest => (unquote rest).map (0x0D :: ·)
  | '\\' :: 't' :: rest => (unquote rest).map (0x09 :: ·)
  | '\\' :: '0' :: rest => (unquote rest).map (0x00 :: ·)
  | '\\' :: '\\' :: rest => (unquote rest).map (0x5C :: ·)
  | '\\' :: '"' :: rest => (unquote rest).map (0x22 :: ·)
  | '\\' :: 'x' :: h :: l :: rest =>
    match hexValue h, hexValue l, unquote rest with
    | some a, some b, some units => some (BitVec.ofNat 8 (16 * a + b) :: units)
    | _, _, _ => none
  | c :: rest =>
    if c = '\\' ∨ 255 < c.toNat then none else (unquote rest).map (BitVec.ofNat 8 c.toNat :: ·)

/-- `PUSHS` and `PUSHB`: one PUSH per unit, in order. -/
def pushAll (units : List Byte) : List Instr := units.map Instr.push

/-- `SETSEP LF`. -/
def setsepLF : List Instr := [.setsep 0 0x0A]

/-- `SETSEP CRLF`. -/
def setsepCRLF : List Instr := [.setsep 0 0x0D, .setsep 1 0x0A]

/-- An invocation in direction `d` and mode `m` on the given input units: OPEN, the PUSHes, FLUSH. -/
def invocation (d : Dir) (m : Mode) (units : List Byte) : List Instr :=
  openInstr d m :: pushAll units ++ [.flush]

/-- `ENCODE m, data`. -/
def encodeProgram (m : Mode) (data : List Byte) : List Instr := invocation .encode m data

/-- `DECODE m, "text"`. -/
def decodeProgram (m : Mode) (text : List Byte) : List Instr := invocation .decode m text

end Sys2Proof.Machine
end

