-- ==== Sys2Proof/Machine/Flags.lean ====
section
/-! DEFINITION. The flags and the two views the host reads. The block has no condition codes (10_state.md R32):
its flags are PENDV, PADSEEN, CMDERR and FSTICKY, and the host sees the status registers through STATUS and
CONFIG (R30), which are functions of the state because reading them has no side effect (20_memory.md R65). -/

namespace Sys2Proof.Machine

/-- PHASE as its code (10_state.md R31). -/
def Phase.code : Phase → BitVec 2
  | .idle => 0
  | .active => 1
  | .done => 2
  | .fault => 3

/-- CECODE as its code (60_exceptions.md R231). -/
def CmdErrorCode.code : CmdErrorCode → BitVec 2
  | .none => 0
  | .illegalCommand => 1
  | .badSequence => 2
  | .reservedMode => 3

/-- FCODE as its code (60_exceptions.md R220). -/
def FaultCode.code : FaultCode → BitVec 3
  | .none => 0
  | .invalidSymbol => 1
  | .b85StrayZ => 2
  | .b85SingleTail => 3
  | .b32MalformedTail => 4
  | .radixRange => 5
  | .b85Overflow => 6

/-- The STATUS word, fields from bit 31 down (10_state.md R30): 31:28 zero, DIR, MODE, FCHAR, 15:11 zero,
FCODE, 7:6 zero, FSTICKY, CECODE, CMDERR, PHASE. -/
def State.statusWord (s : State) : ViewWord :=
  0#4 ++ s.dir.bit ++ s.mode.code ++ s.fchar ++ 0#5 ++ s.fcode.code ++ 0#2 ++
    BitVec.ofBool s.fsticky ++ s.cecode.code ++ BitVec.ofBool s.cmderr ++ s.phase.code

/-- The CONFIG word, fields from bit 31 down (10_state.md R30): SEP1, SEP0, 15:14 zero, SEPLEN, LLEN. -/
def State.configWord (s : State) : ViewWord :=
  s.sep1 ++ s.sep0 ++ 0#2 ++ s.seplen ++ s.llen

end Sys2Proof.Machine
end

