-- ==== Sys2Proof/WellFormed.lean ====
section
/-! DEFINITION. What a legal instance of the block is. A command needs no check: its operands carry their
widths in their types (Syntax.lean), and 30_encoding.md R87 makes every value of them legal. The implementation
parameters do: 00_scope.md R5 and R6 constrain B91PUNCT and SKIPX. The machine runs on every parameter value
(assumption log 6); statements that need a legal instance take `Config.wf` as a hypothesis
(93_implementation_defined.md I16). -/

namespace Sys2Proof

open Sys2Proof.Machine

/-- Whether `c` is a letter or a decimal digit. -/
def isAlphanumeric (c : Byte) : Bool :=
  let n := c.toNat
  (0x41 ≤ n && n ≤ 0x5A) || (0x61 ≤ n && n ≤ 0x7A) || (0x30 ≤ n && n ≤ 0x39)

/-- B91PUNCT is distinct (00_scope.md R5). -/
def Config.punctDistinct (cfg : Config) : Bool := decide cfg.b91Punct.toList.Nodup

/-- B91PUNCT is printable: 0x21 to 0x7E (00_scope.md R5). -/
def Config.punctPrintable (cfg : Config) : Bool :=
  cfg.b91Punct.toList.all fun c => 0x21 ≤ c.toNat && c.toNat ≤ 0x7E

/-- B91PUNCT holds no letter and no digit (00_scope.md R5). -/
def Config.punctNotAlphanumeric (cfg : Config) : Bool :=
  cfg.b91Punct.toList.all fun c => !isAlphanumeric c

/-- B91PUNCT holds no skippable character of Base91 (00_scope.md R5). -/
def Config.punctNotSkippable (cfg : Config) : Bool :=
  cfg.b91Punct.toList.all fun c => !skippable cfg .base91 c

/-- SKIPX of the mode is disjoint from the mode's alphabet (00_scope.md R6). -/
def Config.skipxDisjoint (cfg : Config) (m : Mode) : Bool :=
  (skipExtra cfg m).all fun c => !inAlphabet cfg m c

/-- SKIPX of Base32 does not hold `=` (00_scope.md R6). -/
def Config.skipxNoPad (cfg : Config) : Bool := !cfg.skipx.b32.contains padChar

/-- SKIPX of Base85 does not hold `z` (00_scope.md R6). -/
def Config.skipxNoZ (cfg : Config) : Bool := !cfg.skipx.b85.contains zChar

/-- A legal instance: every constraint of 00_scope.md R5 and R6. -/
def Config.wf (cfg : Config) : Bool :=
  cfg.punctDistinct && cfg.punctPrintable && cfg.punctNotAlphanumeric && cfg.punctNotSkippable &&
    [Mode.base02, .base08, .base10, .base16, .base32, .base85, .base91].all cfg.skipxDisjoint &&
    cfg.skipxNoPad && cfg.skipxNoZ

end Sys2Proof
end

