-- ==== Sys2Proof/Safety.lean ====
section
/-! DEFINITION. What claims about the block are stated in: what the host observes, running a list of commands,
the invariant of 10_state.md R33, and the spec's tables of 40_control.md R116, R122 and 60_exceptions.md R221
written out independently of the meanings. -/

namespace Sys2Proof.Machine

/-! ### Running -/

/-- `n` steps of the machine, stopping at the first fault or refusal (there is none). -/
def runFor : Nat → State → Host.Outcome State Fault Refusal
  | 0, s => .next s
  | n + 1, s =>
    match step s with
    | .next t => runFor n t
    | .fault f => .fault f
    | .refused r => .refused r

/-- The host issues exactly these commands, in order, on CMD. -/
def issue (cmds : List Instr) (s : State) : Host.Outcome State Fault Refusal :=
  runFor cmds.length { s with port := cmds.map fun i => .command (encode i) }

/-- The outcome the host sees (60_exceptions.md R236): OUT, STATUS and CONFIG. -/
structure Observation where
  out : List Byte
  status : ViewWord
  config : ViewWord
deriving DecidableEq, Repr

/-- What the host observes of a state; the working registers are not part of it (10_state.md R34). -/
def State.observe (s : State) : Observation where
  out := s.out
  status := s.statusWord
  config := s.configWord

/-- A run that ended well: PHASE = DONE (70_reset_and_hazards.md R259). -/
abbrev State.succeeded (s : State) : Prop := s.phase = .done

/-- Two states that differ at most in the working registers ACC, CNT, GCNT, LPOS, PEND, PENDV, PADSEEN
(10_state.md R20). -/
def sameButWorking (s t : State) : Prop :=
  { s with acc := 0, cnt := 0, gcnt := 0, lpos := 0, pend := 0, pendv := false, padseen := false } =
    { t with acc := 0, cnt := 0, gcnt := 0, lpos := 0, pend := 0, pendv := false, padseen := false }

/-! ### The invariant -/

/-- PEND, PENDV and PADSEEN at 0, as in every mode that does not use them. -/
abbrev State.noPending (s : State) : Prop := s.pend = 0 ∧ s.pendv = false ∧ s.padseen = false

/-- The row of 10_state.md R33's table for a radix decode mode of radix `r` and width `w`. -/
abbrev State.radixRow (s : State) (r w : Nat) : Prop :=
  s.acc.toNat < r ^ s.gcnt.toNat ∧ s.cnt = 0 ∧ s.gcnt.toNat < w ∧ s.noPending

/-- The working registers between commands of an invocation (10_state.md R33's table). For Base32 encode the
pairs are CNT = (8 n) mod 5 with GCNT = floor(8 n / 5) mod 8 for n mod 5 = 0 to 4; for Base85 decode ACC is
also 0 when no symbol is pending (43_base85.md R185). -/
def State.workingRow (s : State) : Bool :=
  match s.dir, s.mode with
  | .encode, .base02 | .encode, .base08 | .encode, .base10 | .encode, .base16 =>
    decide (s.acc = 0 ∧ s.cnt = 0 ∧ s.gcnt = 0 ∧ s.noPending)
  | .decode, .base02 => decide (s.radixRow 2 8)
  | .decode, .base08 => decide (s.radixRow 8 3)
  | .decode, .base10 => decide (s.radixRow 10 3)
  | .decode, .base16 => decide (s.radixRow 16 2)
  | .encode, .base32 =>
    decide (s.acc.toNat < 2 ^ s.cnt.toNat ∧
      (s.cnt.toNat, s.gcnt.toNat) ∈ [(0, 0), (3, 1), (1, 3), (4, 4), (2, 6)] ∧ s.noPending)
  | .decode, .base32 =>
    decide (s.acc.toNat < 2 ^ s.cnt.toNat ∧ s.cnt.toNat ≤ 7 ∧ s.gcnt = 0 ∧ s.pend = 0 ∧ s.pendv = false)
  | .encode, .base85 =>
    decide (s.acc.toNat < 2 ^ (8 * s.gcnt.toNat) ∧ s.cnt = 0 ∧ s.gcnt.toNat ≤ 3 ∧ s.noPending)
  | .decode, .base85 =>
    decide ((s.gcnt = 0 → s.acc = 0) ∧ s.cnt = 0 ∧ s.gcnt.toNat ≤ 4 ∧ s.noPending)
  | .encode, .base91 =>
    decide (s.acc.toNat < 2 ^ s.cnt.toNat ∧ s.cnt.toNat ≤ 13 ∧ s.gcnt = 0 ∧ s.noPending)
  | .decode, .base91 =>
    decide (s.acc.toNat < 2 ^ s.cnt.toNat ∧ s.cnt.toNat ≤ 7 ∧ s.gcnt = 0 ∧
      s.pend.toNat ≤ 90 ∧ (s.pendv = false → s.pend = 0) ∧ s.padseen = false)

/-- The invariant of the block in ACTIVE: 10_state.md R33's table and its line on LPOS. -/
abbrev State.activeInv (s : State) : Prop :=
  s.phase = .active → s.workingRow = true ∧ s.lpos.toNat < max s.llen.toNat 1

/-- After a FLUSH without fault the tail is gone (40_control.md R115, corner cases). -/
abbrev State.doneInv (s : State) : Prop :=
  s.phase = .done → s.acc = 0 ∧ s.cnt = 0 ∧ s.gcnt = 0 ∧ s.pend = 0 ∧ s.pendv = false

/-- The fault record (60_exceptions.md R220, R224; 40_control.md R111): FCODE names a fault exactly in FAULT,
and FCHAR is 0 where FCODE is. -/
abbrev State.faultInv (s : State) : Prop :=
  (s.phase = .fault ↔ s.fcode ≠ .none) ∧ (s.fcode = .none → s.fchar = 0) ∧
    (s.phase = .fault → s.fsticky = true)

/-- The command-error record (60_exceptions.md R230, R231). -/
abbrev State.errorInv (s : State) : Prop := s.cmderr = true ↔ s.cecode ≠ .none

/-- SEPLEN is 1 or 2 (10_state.md R28). -/
abbrev State.seplenInv (s : State) : Prop := s.seplen = 1 ∨ s.seplen = 2

/-- The invariant of the block between commands. -/
abbrev State.Inv (s : State) : Prop :=
  s.activeInv ∧ s.doneInv ∧ s.faultInv ∧ s.errorInv ∧ s.seplenInv

/-! ### The spec's tables -/

/-- An invocation in direction `d` and mode `m` is in progress. -/
abbrev State.runs (s : State) (d : Dir) (m : Mode) : Prop := s.phase = .active ∧ s.dir = d ∧ s.mode = m

/-- The legal words by ranges (30_encoding.md A.3, the whole map by major opcode). -/
abbrev inLegalRange (w : CommandWord) : Prop :=
  (0x1000 ≤ w.toNat ∧ w.toNat ≤ 0x100F) ∨ (0x2000 ≤ w.toNat ∧ w.toNat ≤ 0x20FF) ∨ w.toNat = 0x3000 ∨
    (0x4000 ≤ w.toNat ∧ w.toNat ≤ 0x4FFF) ∨ (0x5000 ≤ w.toNat ∧ w.toNat ≤ 0x51FF)

/-- The host configured a separator whose bytes the mode's decoder skips (70_reset_and_hazards.md R257). -/
abbrev separatorSkippable (s : State) (m : Mode) : Prop :=
  ∀ c ∈ s.separator, skippable s.cfg m c = true

/-- The OPEN rows that name a mode, with the direction and mode they name (30_encoding.md, table after R86). -/
def openRows : List (Instr × Dir × Mode) :=
  [(.openEB02, .encode, .base02), (.openEB08, .encode, .base08), (.openEB10, .encode, .base10),
   (.openEB16, .encode, .base16), (.openEB32, .encode, .base32), (.openEB85, .encode, .base85),
   (.openEB91, .encode, .base91), (.openDB02, .decode, .base02), (.openDB08, .decode, .base08),
   (.openDB10, .decode, .base10), (.openDB16, .decode, .base16), (.openDB32, .decode, .base32),
   (.openDB85, .decode, .base85), (.openDB91, .decode, .base91)]

/-- The two OPEN rows that name the reserved mode. -/
def reservedRows : List Instr := [.openERsvd5, .openDRsvd5]

/-- Whether a command is allowed in a PHASE (40_control.md R116's table). -/
def allowedIn (i : Instr) (p : Phase) : Bool :=
  match i, p with
  | .push _, .active => true
  | .push _, _ => false
  | .flush, .active => true
  | .flush, _ => false
  | _, .active => false
  | _, _ => true

/-- Whether a character is a symbol of the mode, by character ranges (60_exceptions.md R221's table). -/
def symbolTable (cfg : Config) (m : Mode) (c : Byte) : Bool :=
  let upper := decide (0x41 ≤ c.toNat ∧ c.toNat ≤ 0x5A)
  let lower := decide (0x61 ≤ c.toNat ∧ c.toNat ≤ 0x7A)
  let digit := decide (0x30 ≤ c.toNat ∧ c.toNat ≤ 0x39)
  match m with
  | .base02 => c == 0x30 || c == 0x31
  | .base08 => decide (0x30 ≤ c.toNat ∧ c.toNat ≤ 0x37)
  | .base10 => digit
  | .base16 => digit || (upper && decide (c.toNat ≤ 0x46)) || (lower && decide (c.toNat ≤ 0x66))
  | .base32 => upper || decide (0x32 ≤ c.toNat ∧ c.toNat ≤ 0x37)
  | .base85 => decide (33 ≤ c.toNat ∧ c.toNat ≤ 117)
  | .base91 => upper || lower || digit || cfg.b91Punct.toList.contains c

/-- The character with a meaning of its own in the mode (30_encoding.md R91). -/
def isSpecial (m : Mode) (c : Byte) : Bool :=
  match m with
  | .base32 => c == 0x3D
  | .base85 => c == 0x7A
  | _ => false

/-- The radix modes with their radix and width (41_radix.md R140). -/
def radixModes : List (Mode × Nat × Nat) :=
  [(.base02, 2, 8), (.base08, 8, 3), (.base10, 10, 3), (.base16, 16, 2)]

/-- How many units, separators not counted, a PUSH may append to OUT (40_control.md R122's table). -/
def pushCounts : Dir → Mode → List Nat
  | .encode, .base02 => [8]
  | .encode, .base08 => [3]
  | .encode, .base10 => [3]
  | .encode, .base16 => [2]
  | .encode, .base32 => [1, 2]
  | .encode, .base85 => [0, 1, 5]
  | .encode, .base91 => [0, 2]
  | .decode, .base02 => [0, 1]
  | .decode, .base08 => [0, 1]
  | .decode, .base10 => [0, 1]
  | .decode, .base16 => [0, 1]
  | .decode, .base32 => [0, 1]
  | .decode, .base85 => [0, 4]
  | .decode, .base91 => [0, 1, 2]

/-- How many units, separators not counted, a FLUSH may append to OUT (40_control.md R122's table). -/
def flushCounts : Dir → Mode → List Nat
  | .encode, .base32 => [0, 1, 2, 3, 4, 5, 6, 7]
  | .encode, .base85 => [0, 2, 3, 4]
  | .encode, .base91 => [0, 1, 2]
  | .decode, .base85 => [0, 1, 2, 3]
  | .decode, .base91 => [0, 1]
  | _, _ => [0]

/-- `cs` with `sep` inserted after the characters numbered L, 2L, 3L, … counting from 1; none for L = 0
(40_control.md R123). -/
def insertSeparators (l : Nat) (sep cs : List Byte) : List Byte :=
  if l = 0 then cs
  else (cs.zipIdx 1).flatMap fun p => if p.2 % l = 0 then p.1 :: sep else [p.1]

end Sys2Proof.Machine
end

