-- ==== Sys2Proof/Certificates/Slice0/Obligations.lean ====
section
/-! DEFINITION. The statements for the provers. Each is about the block, not about a program. A result statement
gives the whole next state as a record update, so its frame (every other register, OUT, the parameters and the
host's later transactions unchanged) is part of it. The block has no memory and no program counter
(20_memory.md R61, 10_state.md R31), so no frame speaks of them. -/

open Sys2Proof Sys2Proof.Machine

/-! ### Encoding -/

/-- One word of each format, written out from 30_encoding.md's encodings, and one illegal word. -/
def Obligations.SampleWordsDecode : Prop :=
  decode 0x1004 = .ok .openEB32 ∧ decode 0x100D = .ok .openDRsvd5 ∧ decode 0x2054 = .ok (.push 0x54) ∧
    decode 0x3000 = .ok .flush ∧ decode 0x404C = .ok (.setll 76) ∧ decode 0x510A = .ok (.setsep 1 0x0A) ∧
    decode 0x3001 = .error .illegalCommand

/-- Decoding the word of a command gives the command back, every operand at every value (R80 to R86). -/
def Obligations.DecodeOfEncode : Prop := ∀ i : Instr, decode (encode i) = .ok i

/-- A word that decodes is the word of the command it decodes to: no bit of a legal word is ignored (R80). -/
def Obligations.EncodeOfDecode : Prop :=
  ∀ (w : CommandWord) (i : Instr), decode w = .ok i → encode i = w

/-- The map by major opcode: exactly the listed ranges decode, and a word outside them raises
CmdError(ILLEGAL_COMMAND) in every PHASE and does nothing else; there are 60 655 such words (R87). -/
def Obligations.IllegalWordsRefused : Prop :=
  (∀ w : CommandWord, (∃ i, decode w = .ok i) ↔ inLegalRange w) ∧
    (∀ (s : State) (w : CommandWord) (rest : List PortEvent),
      s.port = .command w :: rest → ¬ inLegalRange w →
        step s = .next { s with
          port := rest, cmderr := true,
          cecode := if s.cmderr then s.cecode else .illegalCommand }) ∧
    ((List.range 65536).filter fun w =>
      decide (decode (BitVec.ofNat 16 w) = .error .illegalCommand)).length = 60655

/-! ### The step -/

/-- When the host's next transaction is a word that decodes to `i`, the step is `exec i` with that transaction
taken off the port (R110, R64). That the host's transactions stand in `port` is the model's own form
(assumption log 1). -/
def Obligations.StepRunsDecodedCommand : Prop :=
  ∀ (s : State) (w : CommandWord) (rest : List PortEvent) (i : Instr),
    s.port = .command w :: rest → decode w = .ok i → step s = exec i { s with port := rest }

/-- RESET at any time leaves every register at its reset value and OUT empty (R250). -/
def Obligations.ResetClearsEverything : Prop :=
  ∀ (s : State) (rest : List PortEvent), s.port = .reset :: rest →
    ∃ t, step s = .next t ∧
      (t.acc, t.cnt, t.gcnt, t.lpos) = (0, 0, 0, 0) ∧ (t.pend, t.pendv, t.padseen) = (0, false, false) ∧
      (t.dir, t.mode, t.llen) = (.encode, .base02, 0) ∧ (t.sep0, t.sep1, t.seplen) = (0x0A, 0x00, 1) ∧
      (t.phase, t.cmderr, t.cecode) = (.idle, false, .none) ∧
      (t.fsticky, t.fcode, t.fchar) = (false, .none, 0) ∧ t.out = [] ∧
      t.statusWord = 0x00000000 ∧ t.configWord = 0x000A1000

/-- The model's choice (assumption log 2 and 3): RESET gives the reset state, but for the parameters and the
host's later transactions, which stay. -/
def Obligations.ResetKeepsParametersAndPort : Prop :=
  ∀ (s : State) (rest : List PortEvent), s.port = .reset :: rest →
    step s = .next { State.reset with cfg := s.cfg, port := rest }

/-- The reset values of the registers and of OUT, and the two views after reset (R40, R41). -/
def Obligations.ResetValues : Prop :=
  (State.reset.acc, State.reset.cnt, State.reset.gcnt, State.reset.lpos) = (0, 0, 0, 0) ∧
    (State.reset.pend, State.reset.pendv, State.reset.padseen) = (0, false, false) ∧
    (State.reset.dir, State.reset.mode, State.reset.llen) = (.encode, .base02, 0) ∧
    (State.reset.sep0, State.reset.sep1, State.reset.seplen) = (0x0A, 0x00, 1) ∧
    (State.reset.phase, State.reset.cmderr, State.reset.cecode) = (.idle, false, .none) ∧
    (State.reset.fsticky, State.reset.fcode, State.reset.fchar) = (false, .none, 0) ∧
    State.reset.out = [] ∧
    State.reset.statusWord = 0x00000000 ∧ State.reset.configWord = 0x000A1000

/-- Every step answers a next state: no command and no character leaves the block's defined behaviour (R235).
That a step with nothing pending changes nothing is the model's own form (assumption log 1). -/
def Obligations.EveryStepAnswersNext : Prop :=
  ∀ s : State, (∃ t, step s = .next t) ∧ (s.port = [] → step s = .next s)

/-- STATUS and CONFIG field by field, reserved bits zero (R30), with the codes of the fields. -/
def Obligations.StatusAndConfigFields : Prop :=
  ∀ s : State,
    s.statusWord.extractLsb' 0 2 = s.phase.code ∧
    s.statusWord.extractLsb' 2 1 = BitVec.ofBool s.cmderr ∧
    s.statusWord.extractLsb' 3 2 = s.cecode.code ∧
    s.statusWord.extractLsb' 5 1 = BitVec.ofBool s.fsticky ∧
    s.statusWord.extractLsb' 6 2 = 0 ∧
    s.statusWord.extractLsb' 8 3 = s.fcode.code ∧
    s.statusWord.extractLsb' 11 5 = 0 ∧
    s.statusWord.extractLsb' 16 8 = s.fchar ∧
    s.statusWord.extractLsb' 24 3 = s.mode.code ∧
    s.statusWord.extractLsb' 27 1 = s.dir.bit ∧
    s.statusWord.extractLsb' 28 4 = 0 ∧
    s.configWord.extractLsb' 0 12 = s.llen ∧
    s.configWord.extractLsb' 12 2 = s.seplen ∧
    s.configWord.extractLsb' 14 2 = 0 ∧
    s.configWord.extractLsb' 16 8 = s.sep0 ∧
    s.configWord.extractLsb' 24 8 = s.sep1 ∧
    (Phase.idle.code, Phase.active.code, Phase.done.code, Phase.fault.code) = (0, 1, 2, 3) ∧
    (CmdErrorCode.none.code, CmdErrorCode.illegalCommand.code, CmdErrorCode.badSequence.code,
      CmdErrorCode.reservedMode.code) = (0, 1, 2, 3) ∧
    ([Mode.base02, .base08, .base10, .base16, .base32, .base85, .base91].map Mode.code) = [0, 1, 2, 3, 4, 6, 7] ∧
    ([FaultCode.none, .invalidSymbol, .b85StrayZ, .b85SingleTail, .b32MalformedTail, .radixRange,
      .b85Overflow].map FaultCode.code) = [0, 1, 2, 3, 4, 5, 6] ∧
    (Dir.encode.bit, Dir.decode.bit) = (0, 1)

/-! ### Control commands -/

/-- OPEN, all sixteen rows (R111): accepted outside ACTIVE when the row names a mode; the reserved mode is
refused with RESERVED_MODE outside ACTIVE; every row is refused with BAD_SEQUENCE in ACTIVE. -/
def Obligations.OpenCommandResult : Prop :=
  (∀ (s : State) (i : Instr) (d : Dir) (m : Mode), (i, d, m) ∈ openRows → s.phase ≠ .active →
    exec i s = .next { s with
      dir := d, mode := m, acc := 0, cnt := 0, gcnt := 0, lpos := 0, pend := 0, pendv := false,
      padseen := false, fcode := .none, fchar := 0, phase := .active }) ∧
  (∀ s : State, s.phase ≠ .active →
    exec .openERsvd5 s = .next { s with
      cmderr := true, cecode := if s.cmderr then s.cecode else .reservedMode } ∧
    exec .openDRsvd5 s = .next { s with
      cmderr := true, cecode := if s.cmderr then s.cecode else .reservedMode }) ∧
  (∀ (s : State) (i : Instr), i ∈ openRows.map Prod.fst ++ reservedRows → s.phase = .active →
    exec i s = .next { s with
      cmderr := true, cecode := if s.cmderr then s.cecode else .badSequence })

/-- SETLL (R112). -/
def Obligations.SetllResult : Prop :=
  ∀ (len : BitVec 12) (s : State),
    (s.phase ≠ .active → exec (.setll len) s = .next { s with llen := len }) ∧
    (s.phase = .active → exec (.setll len) s = .next { s with
      cmderr := true, cecode := if s.cmderr then s.cecode else .badSequence })

/-- SETSEP (R113). -/
def Obligations.SetsepResult : Prop :=
  ∀ (b : Byte) (s : State),
    (s.phase ≠ .active → exec (.setsep 0 b) s = .next { s with sep0 := b, seplen := 1 }) ∧
    (s.phase ≠ .active → exec (.setsep 1 b) s = .next { s with sep1 := b, seplen := 2 }) ∧
    (s.phase = .active → ∀ sel, exec (.setsep sel b) s = .next { s with
      cmderr := true, cecode := if s.cmderr then s.cecode else .badSequence })

/-- The table of which command is allowed in which PHASE (R116): a "no" raises CmdError(BAD_SEQUENCE) and
changes nothing else; a "yes" raises no CmdError, the reserved mode of OPEN apart. -/
def Obligations.SequencingTable : Prop :=
  ∀ (i : Instr) (s : State),
    (allowedIn i s.phase = false → exec i s = .next { s with
      cmderr := true, cecode := if s.cmderr then s.cecode else .badSequence }) ∧
    (allowedIn i s.phase = true → i ∉ reservedRows →
      ∃ t, exec i s = .next t ∧ t.cmderr = s.cmderr ∧ t.cecode = s.cecode)

/-- PHASE changes only as the table of R117 says, at every step. -/
def Obligations.PhaseTransitions : Prop :=
  ∀ s t : State, step s = .next t →
    match s.port with
    | [] => t.phase = s.phase
    | .reset :: _ => t.phase = .idle
    | .command w :: _ =>
      match decode w with
      | .error _ => t.phase = s.phase
      | .ok i =>
        if s.phase = .active then
          match i with
          | .push _ => t.phase = .active ∨ (t.phase = .fault ∧ s.dir = .decode)
          | .flush => t.phase = .done ∨ (t.phase = .fault ∧ s.dir = .decode)
          | _ => t.phase = .active
        else if i ∈ openRows.map Prod.fst then t.phase = .active
        else t.phase = s.phase

/-- A DecodeFault has no effect but its record (R224): a command that enters FAULT is a PUSH or FLUSH of a
decode invocation, and it changes FCODE, FCHAR, FSTICKY and PHASE only, so it has emitted nothing. -/
def Obligations.DecodeFaultIsPrecise : Prop :=
  ∀ (i : Instr) (s t : State), exec i s = .next t → s.phase ≠ .fault → t.phase = .fault →
    s.phase = .active ∧ s.dir = .decode ∧ ((∃ b, i = .push b) ∨ i = .flush) ∧
      ∃ (code : FaultCode) (c : Byte), code ≠ .none ∧
        t = { s with fcode := code, fchar := c, fsticky := true, phase := .fault }

/-- The sticky record (R260, R230): once set, CMDERR and FSTICKY stay set and CECODE keeps the first code, over
every transaction but RESET. -/
def Obligations.StickyRecordKept : Prop :=
  ∀ s t : State, step s = .next t → s.port.head? ≠ some .reset →
    (s.cmderr = true → t.cmderr = true ∧ t.cecode = s.cecode) ∧
    (s.cmderr = false → t.cmderr = true → t.cecode ≠ .none) ∧
    (s.fsticky = true → t.fsticky = true)

/-- Configuration (R256): in ACTIVE no command changes LLEN, the separator, DIR or MODE; outside it only SETLL
changes LLEN, only SETSEP the separator, and only an OPEN row that names them DIR and MODE (R29). -/
def Obligations.ConfigurationFixedInActive : Prop :=
  ∀ (s t : State) (w : CommandWord) (rest : List PortEvent),
    s.port = .command w :: rest → step s = .next t →
      (s.phase = .active → t.llen = s.llen ∧ t.sep0 = s.sep0 ∧ t.sep1 = s.sep1 ∧ t.seplen = s.seplen ∧
        t.dir = s.dir ∧ t.mode = s.mode) ∧
      (t.llen ≠ s.llen → decode w = .ok (.setll t.llen)) ∧
      ((t.sep0, t.sep1, t.seplen) ≠ (s.sep0, s.sep1, s.seplen) → ∃ sel b, decode w = .ok (.setsep sel b)) ∧
      ((t.dir, t.mode) ≠ (s.dir, s.mode) → ∃ i, decode w = .ok i ∧ (i, t.dir, t.mode) ∈ openRows)

/-- OUT is only appended to, by every transaction but RESET (R63). -/
def Obligations.OutOnlyGrows : Prop :=
  ∀ s t : State, step s = .next t → s.port.head? ≠ some .reset → ∃ units, t.out = s.out ++ units

/-- No step writes the parameters. That a state carries them is the model's own form (assumption log 3). -/
def Obligations.ParametersNeverChange : Prop :=
  ∀ s t : State, step s = .next t → t.cfg = s.cfg

/-! ### Emission and the skip filter -/

/-- EmitText and EmitByte (R120, R121). -/
def Obligations.EmissionPrimitives : Prop :=
  ∀ (s : State) (c : Byte),
    (s.llen = 0 → s.emitText c = { s with out := s.out ++ [c] }) ∧
    (s.llen ≠ 0 → s.lpos + 1 ≠ s.llen →
      s.emitText c = { s with out := s.out ++ [c], lpos := s.lpos + 1 }) ∧
    (s.llen ≠ 0 → s.lpos + 1 = s.llen → s.seplen = 2 →
      s.emitText c = { s with out := s.out ++ [c, s.sep0, s.sep1], lpos := 0 }) ∧
    (s.llen ≠ 0 → s.lpos + 1 = s.llen → s.seplen ≠ 2 →
      s.emitText c = { s with out := s.out ++ [c, s.sep0], lpos := 0 }) ∧
    s.emitByte c = { s with out := s.out ++ [c] }

/-- Framer arithmetic (R123): with LLEN = L > 0 an encode invocation emits the characters of the unwrapped
invocation with the separator after the characters numbered L, 2L, 3L, …, which is floor(n / L) separators, and
leaves LPOS = n mod L; with LLEN = 0 it emits exactly the characters. -/
def Obligations.FramerInsertsSeparators : Prop :=
  ∀ (m : Mode) (data : List Byte) (s : State), s.phase ≠ .active →
    ∃ (t0 t : State) (text : List Byte),
      issue (encodeProgram m data) { s with llen := 0 } = .next t0 ∧ t0.out = s.out ++ text ∧
      issue (encodeProgram m data) s = .next t ∧
      t.out = s.out ++ insertSeparators s.llen.toNat s.separator text ∧
      (0 < s.llen.toNat →
        (insertSeparators s.llen.toNat s.separator text).length =
          text.length + text.length / s.llen.toNat * s.separator.length ∧
        t.lpos.toNat = text.length % s.llen.toNat)

/-- Wrapped text decodes like unwrapped text when every separator byte is skippable (R125), from any state `d`
of the decoder outside an invocation. -/
def Obligations.WrappedTextDecodesAlike : Prop :=
  ∀ (m : Mode) (data : List Byte) (s d : State), s.phase ≠ .active → d.phase ≠ .active → d.cfg = s.cfg →
    separatorSkippable s m →
    ∃ (t0 t u : State) (text0 text : List Byte),
      issue (encodeProgram m data) { s with llen := 0 } = .next t0 ∧ t0.out = s.out ++ text0 ∧
      issue (encodeProgram m data) s = .next t ∧ t.out = s.out ++ text ∧
      issue (decodeProgram m text) d = .next u ∧ issue (decodeProgram m text0) d = .next u

/-- Dropping the skippable characters of a decode input changes nothing of the invocation, faults included
(R114, R118). -/
def Obligations.SkippedCharactersInvisible : Prop :=
  ∀ (m : Mode) (text : List Byte) (d : State), d.phase ≠ .active →
    ∃ u, issue (decodeProgram m text) d = .next u ∧
      issue (decodeProgram m (text.filter fun c => !skippable d.cfg m c)) d = .next u

/-- The skip sets (R118) and what a skippable character does in a decode invocation: nothing. -/
def Obligations.SkipFilter : Prop :=
  (∀ (cfg : Config) (m : Mode) (c : Byte), skippable cfg m c = true ↔
    c ∈ ([0x00, 0x09, 0x0A, 0x0D, 0x20] : List Byte) ∨ c ∈ skipExtra cfg m) ∧
  (∀ m ∈ [Mode.base02, .base08, .base10, .base16, .base32], skipExtra Config.default m = [0x2C, 0x2D]) ∧
  (∀ m ∈ [Mode.base85, .base91], skipExtra Config.default m = []) ∧
  (∀ (s : State) (m : Mode) (c : Byte), s.runs .decode m → skippable s.cfg m c = true →
    exec (.push c) s = .next s)

/-! ### Encoders -/

/-- PUSH in encode direction, Base02, Base08, Base10, Base16 (R141 to R144). -/
def Obligations.PushEncodeRadix : Prop :=
  ∀ (b : Byte) (s : State),
    (s.runs .encode .base02 → exec (.push b) s = .next (s.emitTexts
      ([7, 6, 5, 4, 3, 2, 1, 0].map fun k => if b.getLsbD k then (0x31 : Byte) else 0x30))) ∧
    (s.runs .encode .base08 → exec (.push b) s = .next (s.emitTexts
      [0x30 + (b.extractLsb' 6 2).setWidth 8, 0x30 + (b.extractLsb' 3 3).setWidth 8,
       0x30 + (b.extractLsb' 0 3).setWidth 8])) ∧
    (s.runs .encode .base10 → exec (.push b) s = .next (s.emitTexts
      [0x30 + b / 100, 0x30 + b / 10 % 10, 0x30 + b % 10])) ∧
    (s.runs .encode .base16 → exec (.push b) s = .next (s.emitTexts
      ([b.extractLsb' 4 4, b.extractLsb' 0 4].map fun d : BitVec 4 =>
        if d < 10 then 0x30 + d.setWidth 8
        else if s.cfg.hexCase = .upper then 0x41 + (d.setWidth 8 - 10) else 0x61 + (d.setWidth 8 - 10))))

/-- PUSH in encode direction, Base32 (R161), for every state its precondition admits: with CNT = 0 or 1 one
symbol, with CNT = 2, 3 or 4 two. -/
def Obligations.PushEncodeBase32 : Prop :=
  ∀ (b : Byte) (s : State), s.runs .encode .base32 → s.cnt.toNat ≤ 4 → s.acc.toNat < 2 ^ s.cnt.toNat →
    let n := s.acc.toNat * 256 + b.toNat
    let k := s.cnt.toNat + 8
    (k < 10 → exec (.push b) s = .next { s.emitText (tab32 (n / 2 ^ (k - 5))) with
      acc := BitVec.ofNat 32 (n % 2 ^ (k - 5)), cnt := BitVec.ofNat 6 (k - 5), gcnt := s.gcnt + 1 }) ∧
    (10 ≤ k → exec (.push b) s = .next
      { s.emitTexts [tab32 (n / 2 ^ (k - 5)), tab32 (n / 2 ^ (k - 10) % 32)] with
        acc := BitVec.ofNat 32 (n % 2 ^ (k - 10)), cnt := BitVec.ofNat 6 (k - 10), gcnt := s.gcnt + 2 })

/-- FLUSH in encode direction, Base32 (R163): the zero-filled final symbol if CNT > 0, then `=` up to a multiple
of 8 characters. -/
def Obligations.FlushEncodeBase32 : Prop :=
  ∀ s : State, s.runs .encode .base32 → s.cnt.toNat ≤ 4 → s.acc.toNat < 2 ^ s.cnt.toNat →
    (s.cnt = 0 → exec .flush s = .next
      { s.emitTexts (List.replicate ((8 - s.gcnt.toNat) % 8) 0x3D) with gcnt := 0, phase := .done }) ∧
    (s.cnt ≠ 0 → exec .flush s = .next
      { s.emitTexts (tab32 (s.acc.toNat * 2 ^ (5 - s.cnt.toNat)) ::
          List.replicate (7 - s.gcnt.toNat) 0x3D) with
        acc := 0, cnt := 0, gcnt := 0, phase := .done })

/-- PUSH in encode direction, Base85 (R182): a full group is `z` when the word is zero, else its five digits,
most significant first. -/
def Obligations.PushEncodeBase85 : Prop :=
  ∀ (b : Byte) (s : State), s.runs .encode .base85 → s.gcnt.toNat ≤ 3 →
    s.acc.toNat < 2 ^ (8 * s.gcnt.toNat) →
    let w := s.acc.toNat * 256 + b.toNat
    (s.gcnt.toNat < 3 → exec (.push b) s = .next { s with acc := BitVec.ofNat 32 w, gcnt := s.gcnt + 1 }) ∧
    (s.gcnt.toNat = 3 → w = 0 → exec (.push b) s = .next { s.emitText 0x7A with acc := 0, gcnt := 0 }) ∧
    (s.gcnt.toNat = 3 → w ≠ 0 → exec (.push b) s = .next
      { s.emitTexts ([w / 85 ^ 4, w / 85 ^ 3 % 85, w / 85 ^ 2 % 85, w / 85 % 85, w % 85].map
          fun d => BitVec.ofNat 8 (33 + d)) with
        acc := 0, gcnt := 0 })

/-- FLUSH in encode direction, Base85 (R183): r leftover bytes give the first r + 1 digits of the zero-padded
word. -/
def Obligations.FlushEncodeBase85 : Prop :=
  ∀ s : State, s.runs .encode .base85 → s.gcnt.toNat ≤ 3 → s.acc.toNat < 2 ^ (8 * s.gcnt.toNat) →
    let w := s.acc.toNat * 256 ^ (4 - s.gcnt.toNat)
    (s.gcnt = 0 → exec .flush s = .next { s with phase := .done }) ∧
    (s.gcnt ≠ 0 → exec .flush s = .next
      { s.emitTexts (([w / 85 ^ 4, w / 85 ^ 3 % 85, w / 85 ^ 2 % 85, w / 85 % 85, w % 85].take
          (s.gcnt.toNat + 1)).map fun d => BitVec.ofNat 8 (33 + d)) with
        acc := 0, gcnt := 0, phase := .done })

/-- PUSH in encode direction, Base91 (R201): the byte goes in above the CNT bits held; from 14 bits on, a chunk
of 13 or 14 low bits comes out as two symbols, the low one first. -/
def Obligations.PushEncodeBase91 : Prop :=
  ∀ (b : Byte) (s : State), s.runs .encode .base91 → s.cnt.toNat ≤ 13 → s.acc.toNat < 2 ^ s.cnt.toNat →
    let n := s.acc.toNat + b.toNat * 2 ^ s.cnt.toNat
    let k := s.cnt.toNat + 8
    (k < 14 → exec (.push b) s = .next { s with acc := BitVec.ofNat 32 n, cnt := BitVec.ofNat 6 k }) ∧
    (14 ≤ k → 88 < n % 8192 → exec (.push b) s = .next
      { s.emitTexts [tab91 s.cfg (n % 8192 % 91), tab91 s.cfg (n % 8192 / 91)] with
        acc := BitVec.ofNat 32 (n / 8192), cnt := BitVec.ofNat 6 (k - 13) }) ∧
    (14 ≤ k → n % 8192 ≤ 88 → exec (.push b) s = .next
      { s.emitTexts [tab91 s.cfg (n % 16384 % 91), tab91 s.cfg (n % 16384 / 91)] with
        acc := BitVec.ofNat 32 (n / 16384), cnt := BitVec.ofNat 6 (k - 14) })

/-- FLUSH in encode direction, Base91 (R202). -/
def Obligations.FlushEncodeBase91 : Prop :=
  ∀ s : State, s.runs .encode .base91 →
    (s.cnt = 0 → exec .flush s = .next { s with phase := .done }) ∧
    (s.cnt ≠ 0 → (8 ≤ s.cnt.toNat ∨ 91 ≤ s.acc.toNat) → exec .flush s = .next
      { s.emitTexts [tab91 s.cfg (s.acc.toNat % 91), tab91 s.cfg (s.acc.toNat / 91)] with
        acc := 0, cnt := 0, phase := .done }) ∧
    (s.cnt ≠ 0 → s.cnt.toNat < 8 → s.acc.toNat < 91 → exec .flush s = .next
      { s.emitText (tab91 s.cfg s.acc.toNat) with acc := 0, cnt := 0, phase := .done })

/-- FLUSH of the radix modes: nothing to write out in encode direction (R150), an incomplete group dropped
without a fault in decode direction (R149). -/
def Obligations.FlushRadix : Prop :=
  ∀ (s : State) (m : Mode) (r w : Nat), (m, r, w) ∈ radixModes →
    (s.runs .encode m → exec .flush s = .next { s with phase := .done }) ∧
    (s.runs .decode m → exec .flush s = .next { s with acc := 0, gcnt := 0, phase := .done })

/-! ### Decoders -/

/-- PUSH in decode direction, Base02, Base08, Base10, Base16: RadixDecode (R151) at the pairs of R145 to R148. -/
def Obligations.PushDecodeRadix : Prop :=
  ∀ (c : Byte) (s : State) (m : Mode) (r w : Nat), (m, r, w) ∈ radixModes → s.runs .decode m →
    skippable s.cfg m c = false →
    ((∀ d, digitValue c = some d → r ≤ d) →
      exec (.push c) s = .next (raiseDecodeFault ⟨.invalidSymbol, c⟩ s)) ∧
    (∀ d, digitValue c = some d → d < r →
      let v := s.acc.toNat * r + d
      (s.gcnt.toNat + 1 ≠ w → exec (.push c) s = .next
        { s with acc := BitVec.ofNat 32 v, gcnt := s.gcnt + 1 }) ∧
      (s.gcnt.toNat + 1 = w → v ≤ 255 ∨ s.cfg.radixRange = .truncate → exec (.push c) s = .next
        { s with out := s.out ++ [BitVec.ofNat 8 v], acc := 0, gcnt := 0 }) ∧
      (s.gcnt.toNat + 1 = w → 255 < v → s.cfg.radixRange = .fault →
        exec (.push c) s = .next (raiseDecodeFault ⟨.radixRange, c⟩ s)))

/-- INVALID_SYMBOL by mode (R221): a character that is neither skippable nor a special character of the mode
faults exactly when it is outside the mode's ranges; in Base32 nothing is tested once PADSEEN = 1. -/
def Obligations.InvalidSymbolByMode : Prop :=
  (∀ (c : Byte) (s : State) (m : Mode), s.runs .decode m → (m = .base32 → s.padseen = false) →
    skippable s.cfg m c = false → isSpecial m c = false →
    (exec (.push c) s = .next
        { s with fcode := .invalidSymbol, fchar := c, fsticky := true, phase := .fault } ↔
      symbolTable s.cfg m c = false)) ∧
  (∀ (c : Byte) (s : State), s.runs .decode .base32 → s.padseen = true → exec (.push c) s = .next s)

/-- Every unit from 0x80 up faults in every decoder of an instance whose parameters name ASCII characters only
(R98). -/
def Obligations.HighUnitsFault : Prop :=
  ∀ (c : Byte) (s : State) (m : Mode), s.runs .decode m → (m = .base32 → s.padseen = false) →
    (∀ x ∈ skipExtra s.cfg m, x.toNat < 0x80) → (∀ x ∈ s.cfg.b91Punct.toList, x.toNat < 0x80) →
    0x80 ≤ c.toNat →
    exec (.push c) s = .next
      { s with fcode := .invalidSymbol, fchar := c, fsticky := true, phase := .fault }

/-- PUSH in decode direction, Base32 (R164), for every state its precondition admits. -/
def Obligations.PushDecodeBase32 : Prop :=
  ∀ (c : Byte) (s : State), s.runs .decode .base32 → s.padseen = false →
    skippable s.cfg .base32 c = false → s.cnt.toNat ≤ 7 → s.acc.toNat < 2 ^ s.cnt.toNat →
    (c = 0x3D → exec (.push c) s = .next { s with padseen := true }) ∧
    (c ≠ 0x3D → idx32 c = none → exec (.push c) s = .next (raiseDecodeFault ⟨.invalidSymbol, c⟩ s)) ∧
    (∀ d, idx32 c = some d →
      let n := s.acc.toNat * 32 + d
      let k := s.cnt.toNat + 5
      (k < 8 → exec (.push c) s = .next { s with acc := BitVec.ofNat 32 n, cnt := BitVec.ofNat 6 k }) ∧
      (8 ≤ k → exec (.push c) s = .next { s with
        out := s.out ++ [BitVec.ofNat 8 (n / 2 ^ (k - 8))]
        acc := BitVec.ofNat 32 (n % 2 ^ (k - 8)), cnt := BitVec.ofNat 6 (k - 8) }))

/-- After the first `=` nothing more is consumed (R165): any number of further PUSHes, of any characters,
changes nothing, and none of them faults. -/
def Obligations.NothingConsumedAfterPadding : Prop :=
  ∀ (text : List Byte) (s : State), s.runs .decode .base32 → s.padseen = true →
    issue (pushAll text) s = .next { s with port := [] }

/-- FLUSH in decode direction, Base32, the padding validator (R167). -/
def Obligations.FlushDecodeBase32 : Prop :=
  ∀ s : State, s.runs .decode .base32 →
    (s.cnt ≠ 0 → s.acc ≠ 0 → exec .flush s = .next
      { s with fcode := .b32MalformedTail, fchar := 0, fsticky := true, phase := .fault }) ∧
    (s.cnt = 0 ∨ s.acc = 0 → exec .flush s = .next { s with acc := 0, cnt := 0, phase := .done })

/-- PUSH in decode direction, Base85 (R185, R186), for every state its precondition admits. -/
def Obligations.PushDecodeBase85 : Prop :=
  ∀ (c : Byte) (s : State), s.runs .decode .base85 → skippable s.cfg .base85 c = false → s.gcnt.toNat ≤ 4 →
    (c = 0x7A → s.gcnt = 0 → exec (.push c) s = .next { s with out := s.out ++ [0, 0, 0, 0] }) ∧
    (c = 0x7A → s.gcnt ≠ 0 → exec (.push c) s = .next (raiseDecodeFault ⟨.b85StrayZ, 0x7A⟩ s)) ∧
    (c ≠ 0x7A → c.toNat < 33 ∨ 117 < c.toNat →
      exec (.push c) s = .next (raiseDecodeFault ⟨.invalidSymbol, c⟩ s)) ∧
    (33 ≤ c.toNat → c.toNat ≤ 117 →
      let v := s.acc.toNat + (c.toNat - 33) * 85 ^ (4 - s.gcnt.toNat)
      (2 ^ 32 ≤ v → s.cfg.b85Overflow = .fault →
        exec (.push c) s = .next (raiseDecodeFault ⟨.b85Overflow, c⟩ s)) ∧
      (v < 2 ^ 32 ∨ s.cfg.b85Overflow = .wrap → s.gcnt.toNat < 4 →
        exec (.push c) s = .next { s with acc := BitVec.ofNat 32 v, gcnt := s.gcnt + 1 }) ∧
      (v < 2 ^ 32 ∨ s.cfg.b85Overflow = .wrap → s.gcnt.toNat = 4 →
        exec (.push c) s = .next { s with
          out := s.out ++ [BitVec.ofNat 8 (v / 256 ^ 3), BitVec.ofNat 8 (v / 256 ^ 2),
            BitVec.ofNat 8 (v / 256), BitVec.ofNat 8 v]
          acc := 0, gcnt := 0 }))

/-- FLUSH in decode direction, Base85 (R188, R186), for every state its precondition admits: one pending symbol
faults; with 2 to 4 pending the implicit pad is added and GCNT - 1 bytes come out. -/
def Obligations.FlushDecodeBase85 : Prop :=
  ∀ s : State, s.runs .decode .base85 → s.gcnt.toNat ≤ 4 →
    (s.gcnt = 0 → exec .flush s = .next { s with phase := .done }) ∧
    (s.gcnt = 1 → exec .flush s = .next (raiseDecodeFault ⟨.b85SingleTail, 0⟩ s)) ∧
    (2 ≤ s.gcnt.toNat →
      let v := s.acc.toNat + 85 ^ (5 - s.gcnt.toNat)
      (2 ^ 32 ≤ v → s.cfg.b85Overflow = .fault →
        exec .flush s = .next (raiseDecodeFault ⟨.b85Overflow, 0⟩ s)) ∧
      (v < 2 ^ 32 ∨ s.cfg.b85Overflow = .wrap → exec .flush s = .next { s with
        out := s.out ++ ([v / 256 ^ 3, v / 256 ^ 2, v / 256].take (s.gcnt.toNat - 1)).map (BitVec.ofNat 8)
        acc := 0, gcnt := 0, phase := .done }))

/-- PUSH in decode direction, Base91 (R204), for every state its precondition admits: a first symbol is held; a
second completes a value of 13 or 14 bits, of which every whole byte is emitted, low byte first. -/
def Obligations.PushDecodeBase91 : Prop :=
  ∀ (c : Byte) (s : State), s.runs .decode .base91 → skippable s.cfg .base91 c = false →
    s.cnt.toNat ≤ 7 → s.acc.toNat < 2 ^ s.cnt.toNat → s.pend.toNat ≤ 90 →
    (idx91 s.cfg c = none → exec (.push c) s = .next (raiseDecodeFault ⟨.invalidSymbol, c⟩ s)) ∧
    (∀ d, idx91 s.cfg c = some d → s.pendv = false →
      exec (.push c) s = .next { s with pend := BitVec.ofNat 7 d, pendv := true }) ∧
    (∀ d, idx91 s.cfg c = some d → s.pendv = true →
      let v := s.pend.toNat + d * 91
      let n := s.acc.toNat + v * 2 ^ s.cnt.toNat
      let k := s.cnt.toNat + if 88 < v % 8192 then 13 else 14
      exec (.push c) s = .next { s with
        out := s.out ++ (List.range (k / 8)).map fun j => BitVec.ofNat 8 (n / 256 ^ j)
        acc := BitVec.ofNat 32 (n / 256 ^ (k / 8)), cnt := BitVec.ofNat 6 (k % 8)
        pend := 0, pendv := false })

/-- FLUSH in decode direction, Base91 (R206): a lone pending symbol gives one last byte; leftover bits are
discarded whatever they are, so there is no malformed tail (R207). -/
def Obligations.FlushDecodeBase91 : Prop :=
  ∀ s : State, s.runs .decode .base91 → s.acc.toNat < 2 ^ s.cnt.toNat →
    (s.pendv = true → exec .flush s = .next { s with
      out := s.out ++ [BitVec.ofNat 8 (s.acc.toNat + s.pend.toNat * 2 ^ s.cnt.toNat)]
      pend := 0, pendv := false, acc := 0, cnt := 0, phase := .done }) ∧
    (s.pendv = false → exec .flush s = .next { s with acc := 0, cnt := 0, phase := .done })

/-! ### Symbols and digits -/

/-- The alphabets (R90, R92 to R95): which character stands at which index, and, in a legal instance, index and
character determine each other. A hexadecimal digit above 9 has two characters, its upper and its lower case. -/
def Obligations.AlphabetsAreBijections : Prop :=
  (∀ (h : HexCase) (d : Nat), d < 10 → digitChar h d = BitVec.ofNat 8 (0x30 + d)) ∧
  (∀ d : Nat, 10 ≤ d → d < 16 → digitChar .upper d = BitVec.ofNat 8 (0x41 + (d - 10)) ∧
    digitChar .lower d = BitVec.ofNat 8 (0x61 + (d - 10))) ∧
  (∀ (h : HexCase) (d : Nat), d < 16 → digitValue (digitChar h d) = some d) ∧
  (∀ (c : Byte) (d : Nat), digitValue c = some d →
    d < 16 ∧ (c = digitChar .upper d ∨ c = digitChar .lower d)) ∧
  (∀ i : Nat, i < 26 → tab32 i = BitVec.ofNat 8 (0x41 + i)) ∧
  (∀ i : Nat, 26 ≤ i → i < 32 → tab32 i = BitVec.ofNat 8 (0x32 + (i - 26))) ∧
  (∀ i : Nat, i < 32 → idx32 (tab32 i) = some i) ∧
  (∀ (c : Byte) (i : Nat), idx32 c = some i → i < 32 ∧ tab32 i = c) ∧
  (∀ d : Nat, d < 85 → char85 d = BitVec.ofNat 8 (33 + d)) ∧
  (∀ d : Nat, d < 85 → value85 (char85 d) = some d) ∧
  (∀ (c : Byte) (d : Nat), value85 c = some d → d < 85 ∧ char85 d = c) ∧
  (∀ (cfg : Config) (i : Nat), i < 26 → tab91 cfg i = BitVec.ofNat 8 (0x41 + i)) ∧
  (∀ (cfg : Config) (i : Nat), 26 ≤ i → i < 52 → tab91 cfg i = BitVec.ofNat 8 (0x61 + (i - 26))) ∧
  (∀ (cfg : Config) (i : Nat), 52 ≤ i → i < 62 → tab91 cfg i = BitVec.ofNat 8 (0x30 + (i - 52))) ∧
  (∀ (cfg : Config) (k : Fin 29), tab91 cfg (62 + k.val) = cfg.b91Punct[k]) ∧
  (∀ (cfg : Config) (i : Nat), cfg.wf = true → i < 91 → idx91 cfg (tab91 cfg i) = some i) ∧
  (∀ (cfg : Config) (c : Byte) (i : Nat), idx91 cfg c = some i → i < 91 ∧ tab91 cfg i = c)

/-- The five digits of a 32-bit word (R181): each below 85, the first at most 82, and they denote the word. -/
def Obligations.DigitsOfWord : Prop :=
  ∀ w : Nat, w < 2 ^ 32 →
    ∃ d0 d1 d2 d3 d4, digits85 w = [d0, d1, d2, d3, d4] ∧
      w = d0 * 85 ^ 4 + d1 * 85 ^ 3 + d2 * 85 ^ 2 + d3 * 85 + d4 ∧
      d0 ≤ 82 ∧ d1 ≤ 84 ∧ d2 ≤ 84 ∧ d3 ≤ 84 ∧ d4 ≤ 84

/-- The document's rotating offset (R162): with offset = 5 - CNT, a PUSH of the Base32 encoder takes the offset
to offset - 3 where it is at least 4, and to offset + 5 - 3 where it is less. -/
def Obligations.Base32OffsetMachine : Prop :=
  ∀ (b : Byte) (s t : State), s.runs .encode .base32 → s.cnt.toNat ≤ 4 → exec (.push b) s = .next t →
    let offset := 5 - s.cnt.toNat
    (4 ≤ offset → 5 - t.cnt.toNat = offset - 3) ∧ (offset < 4 → 5 - t.cnt.toNat = offset + 5 - 3)

/-! ### Invariants -/

/-- The invariant holds after reset. -/
def Obligations.InvariantAtReset : Prop := State.reset.Inv

/-- Every step keeps the invariant: the working registers stay in their row of R33's table, LPOS stays below
LLEN, SEPLEN stays 1 or 2 (R28), a finished invocation holds no tail (R115), and the two error records stay
consistent with PHASE and CMDERR (R220, R224, R230). -/
def Obligations.StepKeepsInvariant : Prop :=
  ∀ s t : State, s.Inv → step s = .next t → t.Inv

/-- FCODE holds 6 only where B85_OVERFLOW = fault (R227) and 5 only where RADIX_RANGE = fault (R226), at reset
and after every step. -/
def Obligations.ParameterFaultsNeedTheirParameter : Prop :=
  (State.reset.fcode ≠ .b85Overflow ∧ State.reset.fcode ≠ .radixRange) ∧
  ∀ s t : State, step s = .next t →
    (s.fcode = .b85Overflow → s.cfg.b85Overflow = .fault) →
    (s.fcode = .radixRange → s.cfg.radixRange = .fault) →
    (t.fcode = .b85Overflow → t.cfg.b85Overflow = .fault) ∧
      (t.fcode = .radixRange → t.cfg.radixRange = .fault)

/-- How many units a PUSH and a FLUSH append to OUT, separators not counted (R122). -/
def Obligations.OutputCounts : Prop :=
  ∀ (s : State) (d : Dir) (m : Mode), s.Inv → s.runs d m →
    (∀ b : Byte, ∃ t, exec (.push b) s = .next t ∧ ∃ units : List Byte, units.length ∈ pushCounts d m ∧
      t.out = match d with
        | .encode => (s.emitTexts units).out
        | .decode => s.out ++ units) ∧
    (∃ t, exec .flush s = .next t ∧ ∃ units : List Byte, units.length ∈ flushCounts d m ∧
      t.out = match d with
        | .encode => (s.emitTexts units).out
        | .decode => s.out ++ units)

/-- Outside an invocation the working registers cannot be observed (R34, R111): two states that differ in
nothing else give the host the same OUT, STATUS and CONFIG after any number of steps, whatever the host issues. -/
def Obligations.WorkingRegistersUnobservable : Prop :=
  ∀ (n : Nat) (s t : State), s.phase ≠ .active → sameButWorking s t →
    ∃ s' t', runFor n s = .next s' ∧ runFor n t = .next t' ∧ s'.observe = t'.observe

/-! ### Whole invocations -/

/-- An empty invocation emits nothing and ends in DONE, in every mode and direction (R124). -/
def Obligations.EmptyInvocation : Prop :=
  ∀ (d : Dir) (m : Mode) (s : State), s.phase ≠ .active →
    ∃ t, issue (invocation d m []) s = .next t ∧ t.out = s.out ∧ t.phase = .done

/-- With k clean digits the radix decoders emit floor(k / W) bytes and end in DONE (R149), where no group can
leave the byte range: Base02 and Base16 always, Base08 and Base10 under RADIX_RANGE = truncate. -/
def Obligations.RadixDecodeDropsPartialGroup : Prop :=
  ∀ (m : Mode) (r w : Nat) (text : List Byte) (s : State), (m, r, w) ∈ radixModes → s.phase ≠ .active →
    (m = .base02 ∨ m = .base16 ∨ s.cfg.radixRange = .truncate) →
    (∀ c ∈ text, symbolTable s.cfg m c = true ∧ skippable s.cfg m c = false) →
    ∃ (t : State) (bytes : List Byte), issue (decodeProgram m text) s = .next t ∧ t.phase = .done ∧
      t.out = s.out ++ bytes ∧ bytes.length = text.length / w

/-- The shape of a Base32 encoding of n bytes (R160): ceil(8n / 5) symbols, then 0, 6, 4, 3 or 1 `=`, a multiple
of 8 characters in all. -/
def Obligations.Base32EncodingShape : Prop :=
  ∀ (data : List Byte) (s : State), s.phase ≠ .active → s.llen = 0 →
    ∃ (t : State) (symbols : List Byte) (pad : Nat),
      issue (encodeProgram .base32 data) s = .next t ∧ t.phase = .done ∧
      t.out = s.out ++ symbols ++ List.replicate pad 0x3D ∧
      (∀ c ∈ symbols, idx32 c ≠ none) ∧
      symbols.length = (8 * data.length + 4) / 5 ∧
      (data.length % 5, pad) ∈ [(0, 0), (1, 6), (2, 4), (3, 3), (4, 1)] ∧
      symbols.length + pad = 8 * ((data.length + 4) / 5)

/-- The length of a Base85 encoding (R184): with q full groups of which z are all zero and r leftover bytes,
5 (q - z) + z characters and r + 1 more if r > 0. -/
def Obligations.Base85EncodingLength : Prop :=
  ∀ (data : List Byte) (s : State), s.phase ≠ .active → s.llen = 0 →
    let q := data.length / 4
    let r := data.length % 4
    let z := ((List.range q).filter fun i => decide ((data.drop (4 * i)).take 4 = [0, 0, 0, 0])).length
    ∃ (t : State) (text : List Byte),
      issue (encodeProgram .base85 data) s = .next t ∧ t.phase = .done ∧ t.out = s.out ++ text ∧
      text.length = 5 * (q - z) + z + if r = 0 then 0 else r + 1

/-- Round trip of the radix modes (R126). -/
def Obligations.RadixRoundTrip : Prop :=
  ∀ (m : Mode) (r w : Nat) (data : List Byte) (s : State), (m, r, w) ∈ radixModes → s.phase ≠ .active →
    s.cfg.wf = true → separatorSkippable s m →
    ∃ (t u : State) (text : List Byte),
      issue (encodeProgram m data) s = .next t ∧ t.phase = .done ∧ t.out = s.out ++ text ∧
      issue (decodeProgram m text) t = .next u ∧ u.phase = .done ∧ u.out = t.out ++ data

/-- Round trip of Base32 (R126). -/
def Obligations.Base32RoundTrip : Prop :=
  ∀ (data : List Byte) (s : State), s.phase ≠ .active → s.cfg.wf = true → separatorSkippable s .base32 →
    ∃ (t u : State) (text : List Byte),
      issue (encodeProgram .base32 data) s = .next t ∧ t.phase = .done ∧ t.out = s.out ++ text ∧
      issue (decodeProgram .base32 text) t = .next u ∧ u.phase = .done ∧ u.out = t.out ++ data

/-- Round trip of Base85 (R126, R189), under either value of B85_OVERFLOW: no encoder output overflows. -/
def Obligations.Base85RoundTrip : Prop :=
  ∀ (data : List Byte) (s : State), s.phase ≠ .active → s.cfg.wf = true → separatorSkippable s .base85 →
    ∃ (t u : State) (text : List Byte),
      issue (encodeProgram .base85 data) s = .next t ∧ t.phase = .done ∧ t.out = s.out ++ text ∧
      issue (decodeProgram .base85 text) t = .next u ∧ u.phase = .done ∧ u.out = t.out ++ data

/-- Round trip of Base91 (R126, R208), for every legal B91PUNCT. -/
def Obligations.Base91RoundTrip : Prop :=
  ∀ (data : List Byte) (s : State), s.phase ≠ .active → s.cfg.wf = true → separatorSkippable s .base91 →
    ∃ (t u : State) (text : List Byte),
      issue (encodeProgram .base91 data) s = .next t ∧ t.phase = .done ∧ t.out = s.out ++ text ∧
      issue (decodeProgram .base91 text) t = .next u ∧ u.phase = .done ∧ u.out = t.out ++ data
end

