-- ==== Sys2Proof/Laws/State.lean ====
section
/-! SUPPORT. One lemma per field per named update of the state, so that no later proof unfolds a record update. -/

namespace Sys2Proof.Machine

/-! ### EmitByte (40_control.md R121) -/

@[simp] theorem emitByte_acc (s : State) (b : Byte) :
    (s.emitByte b).acc = s.acc := rfl

@[simp] theorem emitByte_cnt (s : State) (b : Byte) :
    (s.emitByte b).cnt = s.cnt := rfl

@[simp] theorem emitByte_gcnt (s : State) (b : Byte) :
    (s.emitByte b).gcnt = s.gcnt := rfl

@[simp] theorem emitByte_lpos (s : State) (b : Byte) :
    (s.emitByte b).lpos = s.lpos := rfl

@[simp] theorem emitByte_pend (s : State) (b : Byte) :
    (s.emitByte b).pend = s.pend := rfl

@[simp] theorem emitByte_pendv (s : State) (b : Byte) :
    (s.emitByte b).pendv = s.pendv := rfl

@[simp] theorem emitByte_padseen (s : State) (b : Byte) :
    (s.emitByte b).padseen = s.padseen := rfl

@[simp] theorem emitByte_dir (s : State) (b : Byte) :
    (s.emitByte b).dir = s.dir := rfl

@[simp] theorem emitByte_mode (s : State) (b : Byte) :
    (s.emitByte b).mode = s.mode := rfl

@[simp] theorem emitByte_llen (s : State) (b : Byte) :
    (s.emitByte b).llen = s.llen := rfl

@[simp] theorem emitByte_sep0 (s : State) (b : Byte) :
    (s.emitByte b).sep0 = s.sep0 := rfl

@[simp] theorem emitByte_sep1 (s : State) (b : Byte) :
    (s.emitByte b).sep1 = s.sep1 := rfl

@[simp] theorem emitByte_seplen (s : State) (b : Byte) :
    (s.emitByte b).seplen = s.seplen := rfl

@[simp] theorem emitByte_phase (s : State) (b : Byte) :
    (s.emitByte b).phase = s.phase := rfl

@[simp] theorem emitByte_cmderr (s : State) (b : Byte) :
    (s.emitByte b).cmderr = s.cmderr := rfl

@[simp] theorem emitByte_cecode (s : State) (b : Byte) :
    (s.emitByte b).cecode = s.cecode := rfl

@[simp] theorem emitByte_fsticky (s : State) (b : Byte) :
    (s.emitByte b).fsticky = s.fsticky := rfl

@[simp] theorem emitByte_fcode (s : State) (b : Byte) :
    (s.emitByte b).fcode = s.fcode := rfl

@[simp] theorem emitByte_fchar (s : State) (b : Byte) :
    (s.emitByte b).fchar = s.fchar := rfl

@[simp] theorem emitByte_out (s : State) (b : Byte) :
    (s.emitByte b).out = s.out ++ [b] := rfl

@[simp] theorem emitByte_cfg (s : State) (b : Byte) :
    (s.emitByte b).cfg = s.cfg := rfl

@[simp] theorem emitByte_port (s : State) (b : Byte) :
    (s.emitByte b).port = s.port := rfl

/-! ### raise DecodeFault (60_exceptions.md R224) -/

@[simp] theorem raiseDecodeFault_acc (f : RaisedFault) (s : State) :
    (raiseDecodeFault f s).acc = s.acc := rfl

@[simp] theorem raiseDecodeFault_cnt (f : RaisedFault) (s : State) :
    (raiseDecodeFault f s).cnt = s.cnt := rfl

@[simp] theorem raiseDecodeFault_gcnt (f : RaisedFault) (s : State) :
    (raiseDecodeFault f s).gcnt = s.gcnt := rfl

@[simp] theorem raiseDecodeFault_lpos (f : RaisedFault) (s : State) :
    (raiseDecodeFault f s).lpos = s.lpos := rfl

@[simp] theorem raiseDecodeFault_pend (f : RaisedFault) (s : State) :
    (raiseDecodeFault f s).pend = s.pend := rfl

@[simp] theorem raiseDecodeFault_pendv (f : RaisedFault) (s : State) :
    (raiseDecodeFault f s).pendv = s.pendv := rfl

@[simp] theorem raiseDecodeFault_padseen (f : RaisedFault) (s : State) :
    (raiseDecodeFault f s).padseen = s.padseen := rfl

@[simp] theorem raiseDecodeFault_dir (f : RaisedFault) (s : State) :
    (raiseDecodeFault f s).dir = s.dir := rfl

@[simp] theorem raiseDecodeFault_mode (f : RaisedFault) (s : State) :
    (raiseDecodeFault f s).mode = s.mode := rfl

@[simp] theorem raiseDecodeFault_llen (f : RaisedFault) (s : State) :
    (raiseDecodeFault f s).llen = s.llen := rfl

@[simp] theorem raiseDecodeFault_sep0 (f : RaisedFault) (s : State) :
    (raiseDecodeFault f s).sep0 = s.sep0 := rfl

@[simp] theorem raiseDecodeFault_sep1 (f : RaisedFault) (s : State) :
    (raiseDecodeFault f s).sep1 = s.sep1 := rfl

@[simp] theorem raiseDecodeFault_seplen (f : RaisedFault) (s : State) :
    (raiseDecodeFault f s).seplen = s.seplen := rfl

@[simp] theorem raiseDecodeFault_phase (f : RaisedFault) (s : State) :
    (raiseDecodeFault f s).phase = .fault := rfl

@[simp] theorem raiseDecodeFault_cmderr (f : RaisedFault) (s : State) :
    (raiseDecodeFault f s).cmderr = s.cmderr := rfl

@[simp] theorem raiseDecodeFault_cecode (f : RaisedFault) (s : State) :
    (raiseDecodeFault f s).cecode = s.cecode := rfl

@[simp] theorem raiseDecodeFault_fsticky (f : RaisedFault) (s : State) :
    (raiseDecodeFault f s).fsticky = true := rfl

@[simp] theorem raiseDecodeFault_fcode (f : RaisedFault) (s : State) :
    (raiseDecodeFault f s).fcode = f.code := rfl

@[simp] theorem raiseDecodeFault_fchar (f : RaisedFault) (s : State) :
    (raiseDecodeFault f s).fchar = f.char := rfl

@[simp] theorem raiseDecodeFault_out (f : RaisedFault) (s : State) :
    (raiseDecodeFault f s).out = s.out := rfl

@[simp] theorem raiseDecodeFault_cfg (f : RaisedFault) (s : State) :
    (raiseDecodeFault f s).cfg = s.cfg := rfl

@[simp] theorem raiseDecodeFault_port (f : RaisedFault) (s : State) :
    (raiseDecodeFault f s).port = s.port := rfl

/-! ### raise CmdError (60_exceptions.md R230) -/

@[simp] theorem raiseCmdError_acc (code : CmdErrorCode) (s : State) :
    (raiseCmdError code s).acc = s.acc := rfl

@[simp] theorem raiseCmdError_cnt (code : CmdErrorCode) (s : State) :
    (raiseCmdError code s).cnt = s.cnt := rfl

@[simp] theorem raiseCmdError_gcnt (code : CmdErrorCode) (s : State) :
    (raiseCmdError code s).gcnt = s.gcnt := rfl

@[simp] theorem raiseCmdError_lpos (code : CmdErrorCode) (s : State) :
    (raiseCmdError code s).lpos = s.lpos := rfl

@[simp] theorem raiseCmdError_pend (code : CmdErrorCode) (s : State) :
    (raiseCmdError code s).pend = s.pend := rfl

@[simp] theorem raiseCmdError_pendv (code : CmdErrorCode) (s : State) :
    (raiseCmdError code s).pendv = s.pendv := rfl

@[simp] theorem raiseCmdError_padseen (code : CmdErrorCode) (s : State) :
    (raiseCmdError code s).padseen = s.padseen := rfl

@[simp] theorem raiseCmdError_dir (code : CmdErrorCode) (s : State) :
    (raiseCmdError code s).dir = s.dir := rfl

@[simp] theorem raiseCmdError_mode (code : CmdErrorCode) (s : State) :
    (raiseCmdError code s).mode = s.mode := rfl

@[simp] theorem raiseCmdError_llen (code : CmdErrorCode) (s : State) :
    (raiseCmdError code s).llen = s.llen := rfl

@[simp] theorem raiseCmdError_sep0 (code : CmdErrorCode) (s : State) :
    (raiseCmdError code s).sep0 = s.sep0 := rfl

@[simp] theorem raiseCmdError_sep1 (code : CmdErrorCode) (s : State) :
    (raiseCmdError code s).sep1 = s.sep1 := rfl

@[simp] theorem raiseCmdError_seplen (code : CmdErrorCode) (s : State) :
    (raiseCmdError code s).seplen = s.seplen := rfl

@[simp] theorem raiseCmdError_phase (code : CmdErrorCode) (s : State) :
    (raiseCmdError code s).phase = s.phase := rfl

@[simp] theorem raiseCmdError_cmderr (code : CmdErrorCode) (s : State) :
    (raiseCmdError code s).cmderr = true := rfl

@[simp] theorem raiseCmdError_cecode (code : CmdErrorCode) (s : State) :
    (raiseCmdError code s).cecode = (if s.cmderr then s.cecode else code) := rfl

@[simp] theorem raiseCmdError_fsticky (code : CmdErrorCode) (s : State) :
    (raiseCmdError code s).fsticky = s.fsticky := rfl

@[simp] theorem raiseCmdError_fcode (code : CmdErrorCode) (s : State) :
    (raiseCmdError code s).fcode = s.fcode := rfl

@[simp] theorem raiseCmdError_fchar (code : CmdErrorCode) (s : State) :
    (raiseCmdError code s).fchar = s.fchar := rfl

@[simp] theorem raiseCmdError_out (code : CmdErrorCode) (s : State) :
    (raiseCmdError code s).out = s.out := rfl

@[simp] theorem raiseCmdError_cfg (code : CmdErrorCode) (s : State) :
    (raiseCmdError code s).cfg = s.cfg := rfl

@[simp] theorem raiseCmdError_port (code : CmdErrorCode) (s : State) :
    (raiseCmdError code s).port = s.port := rfl

/-! ### An accepted OPEN (40_control.md R111) -/

@[simp] theorem startInvocation_acc (d : Dir) (m : Mode) (s : State) :
    (startInvocation d m s).acc = 0 := rfl

@[simp] theorem startInvocation_cnt (d : Dir) (m : Mode) (s : State) :
    (startInvocation d m s).cnt = 0 := rfl

@[simp] theorem startInvocation_gcnt (d : Dir) (m : Mode) (s : State) :
    (startInvocation d m s).gcnt = 0 := rfl

@[simp] theorem startInvocation_lpos (d : Dir) (m : Mode) (s : State) :
    (startInvocation d m s).lpos = 0 := rfl

@[simp] theorem startInvocation_pend (d : Dir) (m : Mode) (s : State) :
    (startInvocation d m s).pend = 0 := rfl

@[simp] theorem startInvocation_pendv (d : Dir) (m : Mode) (s : State) :
    (startInvocation d m s).pendv = false := rfl

@[simp] theorem startInvocation_padseen (d : Dir) (m : Mode) (s : State) :
    (startInvocation d m s).padseen = false := rfl

@[simp] theorem startInvocation_dir (d : Dir) (m : Mode) (s : State) :
    (startInvocation d m s).dir = d := rfl

@[simp] theorem startInvocation_mode (d : Dir) (m : Mode) (s : State) :
    (startInvocation d m s).mode = m := rfl

@[simp] theorem startInvocation_llen (d : Dir) (m : Mode) (s : State) :
    (startInvocation d m s).llen = s.llen := rfl

@[simp] theorem startInvocation_sep0 (d : Dir) (m : Mode) (s : State) :
    (startInvocation d m s).sep0 = s.sep0 := rfl

@[simp] theorem startInvocation_sep1 (d : Dir) (m : Mode) (s : State) :
    (startInvocation d m s).sep1 = s.sep1 := rfl

@[simp] theorem startInvocation_seplen (d : Dir) (m : Mode) (s : State) :
    (startInvocation d m s).seplen = s.seplen := rfl

@[simp] theorem startInvocation_phase (d : Dir) (m : Mode) (s : State) :
    (startInvocation d m s).phase = .active := rfl

@[simp] theorem startInvocation_cmderr (d : Dir) (m : Mode) (s : State) :
    (startInvocation d m s).cmderr = s.cmderr := rfl

@[simp] theorem startInvocation_cecode (d : Dir) (m : Mode) (s : State) :
    (startInvocation d m s).cecode = s.cecode := rfl

@[simp] theorem startInvocation_fsticky (d : Dir) (m : Mode) (s : State) :
    (startInvocation d m s).fsticky = s.fsticky := rfl

@[simp] theorem startInvocation_fcode (d : Dir) (m : Mode) (s : State) :
    (startInvocation d m s).fcode = .none := rfl

@[simp] theorem startInvocation_fchar (d : Dir) (m : Mode) (s : State) :
    (startInvocation d m s).fchar = 0 := rfl

@[simp] theorem startInvocation_out (d : Dir) (m : Mode) (s : State) :
    (startInvocation d m s).out = s.out := rfl

@[simp] theorem startInvocation_cfg (d : Dir) (m : Mode) (s : State) :
    (startInvocation d m s).cfg = s.cfg := rfl

@[simp] theorem startInvocation_port (d : Dir) (m : Mode) (s : State) :
    (startInvocation d m s).port = s.port := rfl

/-! ### RESET (70_reset_and_hazards.md R250) -/

@[simp] theorem applyReset_acc (s : State) :
    (applyReset s).acc = State.reset.acc := rfl

@[simp] theorem applyReset_cnt (s : State) :
    (applyReset s).cnt = State.reset.cnt := rfl

@[simp] theorem applyReset_gcnt (s : State) :
    (applyReset s).gcnt = State.reset.gcnt := rfl

@[simp] theorem applyReset_lpos (s : State) :
    (applyReset s).lpos = State.reset.lpos := rfl

@[simp] theorem applyReset_pend (s : State) :
    (applyReset s).pend = State.reset.pend := rfl

@[simp] theorem applyReset_pendv (s : State) :
    (applyReset s).pendv = State.reset.pendv := rfl

@[simp] theorem applyReset_padseen (s : State) :
    (applyReset s).padseen = State.reset.padseen := rfl

@[simp] theorem applyReset_dir (s : State) :
    (applyReset s).dir = State.reset.dir := rfl

@[simp] theorem applyReset_mode (s : State) :
    (applyReset s).mode = State.reset.mode := rfl

@[simp] theorem applyReset_llen (s : State) :
    (applyReset s).llen = State.reset.llen := rfl

@[simp] theorem applyReset_sep0 (s : State) :
    (applyReset s).sep0 = State.reset.sep0 := rfl

@[simp] theorem applyReset_sep1 (s : State) :
    (applyReset s).sep1 = State.reset.sep1 := rfl

@[simp] theorem applyReset_seplen (s : State) :
    (applyReset s).seplen = State.reset.seplen := rfl

@[simp] theorem applyReset_phase (s : State) :
    (applyReset s).phase = State.reset.phase := rfl

@[simp] theorem applyReset_cmderr (s : State) :
    (applyReset s).cmderr = State.reset.cmderr := rfl

@[simp] theorem applyReset_cecode (s : State) :
    (applyReset s).cecode = State.reset.cecode := rfl

@[simp] theorem applyReset_fsticky (s : State) :
    (applyReset s).fsticky = State.reset.fsticky := rfl

@[simp] theorem applyReset_fcode (s : State) :
    (applyReset s).fcode = State.reset.fcode := rfl

@[simp] theorem applyReset_fchar (s : State) :
    (applyReset s).fchar = State.reset.fchar := rfl

@[simp] theorem applyReset_out (s : State) :
    (applyReset s).out = State.reset.out := rfl

@[simp] theorem applyReset_cfg (s : State) :
    (applyReset s).cfg = s.cfg := rfl

@[simp] theorem applyReset_port (s : State) :
    (applyReset s).port = s.port := rfl

/-! ### The host presents a command word -/

@[simp] theorem present_acc (s : State) (w : CommandWord) :
    (s.present w).acc = s.acc := rfl

@[simp] theorem present_cnt (s : State) (w : CommandWord) :
    (s.present w).cnt = s.cnt := rfl

@[simp] theorem present_gcnt (s : State) (w : CommandWord) :
    (s.present w).gcnt = s.gcnt := rfl

@[simp] theorem present_lpos (s : State) (w : CommandWord) :
    (s.present w).lpos = s.lpos := rfl

@[simp] theorem present_pend (s : State) (w : CommandWord) :
    (s.present w).pend = s.pend := rfl

@[simp] theorem present_pendv (s : State) (w : CommandWord) :
    (s.present w).pendv = s.pendv := rfl

@[simp] theorem present_padseen (s : State) (w : CommandWord) :
    (s.present w).padseen = s.padseen := rfl

@[simp] theorem present_dir (s : State) (w : CommandWord) :
    (s.present w).dir = s.dir := rfl

@[simp] theorem present_mode (s : State) (w : CommandWord) :
    (s.present w).mode = s.mode := rfl

@[simp] theorem present_llen (s : State) (w : CommandWord) :
    (s.present w).llen = s.llen := rfl

@[simp] theorem present_sep0 (s : State) (w : CommandWord) :
    (s.present w).sep0 = s.sep0 := rfl

@[simp] theorem present_sep1 (s : State) (w : CommandWord) :
    (s.present w).sep1 = s.sep1 := rfl

@[simp] theorem present_seplen (s : State) (w : CommandWord) :
    (s.present w).seplen = s.seplen := rfl

@[simp] theorem present_phase (s : State) (w : CommandWord) :
    (s.present w).phase = s.phase := rfl

@[simp] theorem present_cmderr (s : State) (w : CommandWord) :
    (s.present w).cmderr = s.cmderr := rfl

@[simp] theorem present_cecode (s : State) (w : CommandWord) :
    (s.present w).cecode = s.cecode := rfl

@[simp] theorem present_fsticky (s : State) (w : CommandWord) :
    (s.present w).fsticky = s.fsticky := rfl

@[simp] theorem present_fcode (s : State) (w : CommandWord) :
    (s.present w).fcode = s.fcode := rfl

@[simp] theorem present_fchar (s : State) (w : CommandWord) :
    (s.present w).fchar = s.fchar := rfl

@[simp] theorem present_out (s : State) (w : CommandWord) :
    (s.present w).out = s.out := rfl

@[simp] theorem present_cfg (s : State) (w : CommandWord) :
    (s.present w).cfg = s.cfg := rfl

@[simp] theorem present_port (s : State) (w : CommandWord) :
    (s.present w).port = .command w :: s.port := rfl

/-! ### EmitText writes OUT and LPOS only (40_control.md R120) -/

@[simp] theorem emitText_acc (s : State) (c : Byte) : (s.emitText c).acc = s.acc := by
  unfold State.emitText; split <;> [rfl; (split <;> rfl)]

@[simp] theorem emitText_cnt (s : State) (c : Byte) : (s.emitText c).cnt = s.cnt := by
  unfold State.emitText; split <;> [rfl; (split <;> rfl)]

@[simp] theorem emitText_gcnt (s : State) (c : Byte) : (s.emitText c).gcnt = s.gcnt := by
  unfold State.emitText; split <;> [rfl; (split <;> rfl)]

@[simp] theorem emitText_pend (s : State) (c : Byte) : (s.emitText c).pend = s.pend := by
  unfold State.emitText; split <;> [rfl; (split <;> rfl)]

@[simp] theorem emitText_pendv (s : State) (c : Byte) : (s.emitText c).pendv = s.pendv := by
  unfold State.emitText; split <;> [rfl; (split <;> rfl)]

@[simp] theorem emitText_padseen (s : State) (c : Byte) : (s.emitText c).padseen = s.padseen := by
  unfold State.emitText; split <;> [rfl; (split <;> rfl)]

@[simp] theorem emitText_dir (s : State) (c : Byte) : (s.emitText c).dir = s.dir := by
  unfold State.emitText; split <;> [rfl; (split <;> rfl)]

@[simp] theorem emitText_mode (s : State) (c : Byte) : (s.emitText c).mode = s.mode := by
  unfold State.emitText; split <;> [rfl; (split <;> rfl)]

@[simp] theorem emitText_llen (s : State) (c : Byte) : (s.emitText c).llen = s.llen := by
  unfold State.emitText; split <;> [rfl; (split <;> rfl)]

@[simp] theorem emitText_sep0 (s : State) (c : Byte) : (s.emitText c).sep0 = s.sep0 := by
  unfold State.emitText; split <;> [rfl; (split <;> rfl)]

@[simp] theorem emitText_sep1 (s : State) (c : Byte) : (s.emitText c).sep1 = s.sep1 := by
  unfold State.emitText; split <;> [rfl; (split <;> rfl)]

@[simp] theorem emitText_seplen (s : State) (c : Byte) : (s.emitText c).seplen = s.seplen := by
  unfold State.emitText; split <;> [rfl; (split <;> rfl)]

@[simp] theorem emitText_phase (s : State) (c : Byte) : (s.emitText c).phase = s.phase := by
  unfold State.emitText; split <;> [rfl; (split <;> rfl)]

@[simp] theorem emitText_cmderr (s : State) (c : Byte) : (s.emitText c).cmderr = s.cmderr := by
  unfold State.emitText; split <;> [rfl; (split <;> rfl)]

@[simp] theorem emitText_cecode (s : State) (c : Byte) : (s.emitText c).cecode = s.cecode := by
  unfold State.emitText; split <;> [rfl; (split <;> rfl)]

@[simp] theorem emitText_fsticky (s : State) (c : Byte) : (s.emitText c).fsticky = s.fsticky := by
  unfold State.emitText; split <;> [rfl; (split <;> rfl)]

@[simp] theorem emitText_fcode (s : State) (c : Byte) : (s.emitText c).fcode = s.fcode := by
  unfold State.emitText; split <;> [rfl; (split <;> rfl)]

@[simp] theorem emitText_fchar (s : State) (c : Byte) : (s.emitText c).fchar = s.fchar := by
  unfold State.emitText; split <;> [rfl; (split <;> rfl)]

@[simp] theorem emitText_cfg (s : State) (c : Byte) : (s.emitText c).cfg = s.cfg := by
  unfold State.emitText; split <;> [rfl; (split <;> rfl)]

@[simp] theorem emitText_port (s : State) (c : Byte) : (s.emitText c).port = s.port := by
  unfold State.emitText; split <;> [rfl; (split <;> rfl)]

/-! ### The same of a list of characters -/

@[simp] theorem emitTexts_acc (s : State) (cs : List Byte) : (s.emitTexts cs).acc = s.acc := by
  induction cs generalizing s with
  | nil => rfl
  | cons c cs ih => exact (ih (s.emitText c)).trans (emitText_acc s c)

@[simp] theorem emitTexts_cnt (s : State) (cs : List Byte) : (s.emitTexts cs).cnt = s.cnt := by
  induction cs generalizing s with
  | nil => rfl
  | cons c cs ih => exact (ih (s.emitText c)).trans (emitText_cnt s c)

@[simp] theorem emitTexts_gcnt (s : State) (cs : List Byte) : (s.emitTexts cs).gcnt = s.gcnt := by
  induction cs generalizing s with
  | nil => rfl
  | cons c cs ih => exact (ih (s.emitText c)).trans (emitText_gcnt s c)

@[simp] theorem emitTexts_pend (s : State) (cs : List Byte) : (s.emitTexts cs).pend = s.pend := by
  induction cs generalizing s with
  | nil => rfl
  | cons c cs ih => exact (ih (s.emitText c)).trans (emitText_pend s c)

@[simp] theorem emitTexts_pendv (s : State) (cs : List Byte) : (s.emitTexts cs).pendv = s.pendv := by
  induction cs generalizing s with
  | nil => rfl
  | cons c cs ih => exact (ih (s.emitText c)).trans (emitText_pendv s c)

@[simp] theorem emitTexts_padseen (s : State) (cs : List Byte) : (s.emitTexts cs).padseen = s.padseen := by
  induction cs generalizing s with
  | nil => rfl
  | cons c cs ih => exact (ih (s.emitText c)).trans (emitText_padseen s c)

@[simp] theorem emitTexts_dir (s : State) (cs : List Byte) : (s.emitTexts cs).dir = s.dir := by
  induction cs generalizing s with
  | nil => rfl
  | cons c cs ih => exact (ih (s.emitText c)).trans (emitText_dir s c)

@[simp] theorem emitTexts_mode (s : State) (cs : List Byte) : (s.emitTexts cs).mode = s.mode := by
  induction cs generalizing s with
  | nil => rfl
  | cons c cs ih => exact (ih (s.emitText c)).trans (emitText_mode s c)

@[simp] theorem emitTexts_llen (s : State) (cs : List Byte) : (s.emitTexts cs).llen = s.llen := by
  induction cs generalizing s with
  | nil => rfl
  | cons c cs ih => exact (ih (s.emitText c)).trans (emitText_llen s c)

@[simp] theorem emitTexts_sep0 (s : State) (cs : List Byte) : (s.emitTexts cs).sep0 = s.sep0 := by
  induction cs generalizing s with
  | nil => rfl
  | cons c cs ih => exact (ih (s.emitText c)).trans (emitText_sep0 s c)

@[simp] theorem emitTexts_sep1 (s : State) (cs : List Byte) : (s.emitTexts cs).sep1 = s.sep1 := by
  induction cs generalizing s with
  | nil => rfl
  | cons c cs ih => exact (ih (s.emitText c)).trans (emitText_sep1 s c)

@[simp] theorem emitTexts_seplen (s : State) (cs : List Byte) : (s.emitTexts cs).seplen = s.seplen := by
  induction cs generalizing s with
  | nil => rfl
  | cons c cs ih => exact (ih (s.emitText c)).trans (emitText_seplen s c)

@[simp] theorem emitTexts_phase (s : State) (cs : List Byte) : (s.emitTexts cs).phase = s.phase := by
  induction cs generalizing s with
  | nil => rfl
  | cons c cs ih => exact (ih (s.emitText c)).trans (emitText_phase s c)

@[simp] theorem emitTexts_cmderr (s : State) (cs : List Byte) : (s.emitTexts cs).cmderr = s.cmderr := by
  induction cs generalizing s with
  | nil => rfl
  | cons c cs ih => exact (ih (s.emitText c)).trans (emitText_cmderr s c)

@[simp] theorem emitTexts_cecode (s : State) (cs : List Byte) : (s.emitTexts cs).cecode = s.cecode := by
  induction cs generalizing s with
  | nil => rfl
  | cons c cs ih => exact (ih (s.emitText c)).trans (emitText_cecode s c)

@[simp] theorem emitTexts_fsticky (s : State) (cs : List Byte) : (s.emitTexts cs).fsticky = s.fsticky := by
  induction cs generalizing s with
  | nil => rfl
  | cons c cs ih => exact (ih (s.emitText c)).trans (emitText_fsticky s c)

@[simp] theorem emitTexts_fcode (s : State) (cs : List Byte) : (s.emitTexts cs).fcode = s.fcode := by
  induction cs generalizing s with
  | nil => rfl
  | cons c cs ih => exact (ih (s.emitText c)).trans (emitText_fcode s c)

@[simp] theorem emitTexts_fchar (s : State) (cs : List Byte) : (s.emitTexts cs).fchar = s.fchar := by
  induction cs generalizing s with
  | nil => rfl
  | cons c cs ih => exact (ih (s.emitText c)).trans (emitText_fchar s c)

@[simp] theorem emitTexts_cfg (s : State) (cs : List Byte) : (s.emitTexts cs).cfg = s.cfg := by
  induction cs generalizing s with
  | nil => rfl
  | cons c cs ih => exact (ih (s.emitText c)).trans (emitText_cfg s c)

@[simp] theorem emitTexts_port (s : State) (cs : List Byte) : (s.emitTexts cs).port = s.port := by
  induction cs generalizing s with
  | nil => rfl
  | cons c cs ih => exact (ih (s.emitText c)).trans (emitText_port s c)

end Sys2Proof.Machine
end

