-- ==== Sys2Proof/Laws/Ops.lean ====
section
/-! SUPPORT. What each shared operation can do, said once. -/

namespace Sys2Proof.Machine

/-! ### Emission -/

@[simp] theorem emitTexts_nil (s : State) : s.emitTexts [] = s := rfl

@[simp] theorem emitTexts_cons (s : State) (c : Byte) (cs : List Byte) :
    s.emitTexts (c :: cs) = (s.emitText c).emitTexts cs := rfl

theorem emitTexts_append (s : State) (cs ds : List Byte) :
    s.emitTexts (cs ++ ds) = (s.emitTexts cs).emitTexts ds := List.foldl_append

@[simp] theorem separator_emitText (s : State) (c : Byte) : (s.emitText c).separator = s.separator := by
  simp [State.separator]

/-- Everything `EmitText` can do: it appends to OUT and moves LPOS. -/
theorem emitText_eq_update (s : State) (c : Byte) :
    ∃ (units : List Byte) (p : BitVec 12), s.emitText c = { s with out := s.out ++ units, lpos := p } := by
  unfold State.emitText
  split
  · exact ⟨[c], s.lpos, rfl⟩
  · split
    · exact ⟨[c] ++ s.separator, 0, by simp⟩
    · exact ⟨[c], s.lpos + 1, rfl⟩

/-- Everything a list of `EmitText` can do. -/
theorem emitTexts_eq_update (s : State) (cs : List Byte) :
    ∃ (units : List Byte) (p : BitVec 12), s.emitTexts cs = { s with out := s.out ++ units, lpos := p } := by
  induction cs generalizing s with
  | nil => exact ⟨[], s.lpos, by simp⟩
  | cons c cs ih =>
    obtain ⟨u, p, h⟩ := emitText_eq_update s c
    obtain ⟨v, q, h'⟩ := ih (s.emitText c)
    exact ⟨u ++ v, q, by rw [emitTexts_cons, h', h]; simp⟩

/-- With wrapping disabled the characters go out as they are. -/
theorem emitTexts_of_llen_zero (s : State) (cs : List Byte) (h : s.llen = 0) :
    s.emitTexts cs = { s with out := s.out ++ cs } := by
  induction cs generalizing s with
  | nil => simp
  | cons c cs ih =>
    rw [emitTexts_cons, ih _ (by simpa using h)]
    simp [State.emitText, h]

/-- A list of `EmitByte` appends the bytes and does nothing else. -/
@[simp] theorem emitBytes_eq (s : State) (bs : List Byte) :
    s.emitBytes bs = { s with out := s.out ++ bs } := by
  unfold State.emitBytes
  induction bs generalizing s with
  | nil => simp
  | cons b bs ih => simp [ih, State.emitByte]

/-- `EmitText` does not read or write the registers of the bit packers, so it may be moved past their update. -/
theorem emitText_working (s : State) (c : Byte) (acc : BitVec 32) (cnt : BitVec 6) (gcnt : BitVec 3) :
    State.emitText { s with acc := acc, cnt := cnt, gcnt := gcnt } c =
      { s.emitText c with acc := acc, cnt := cnt, gcnt := gcnt } := by
  unfold State.emitText State.separator
  dsimp only
  repeat' split
  all_goals rfl

/-- The same of a list of characters. -/
theorem emitTexts_working (s : State) (cs : List Byte) (acc : BitVec 32) (cnt : BitVec 6) (gcnt : BitVec 3) :
    State.emitTexts { s with acc := acc, cnt := cnt, gcnt := gcnt } cs =
      { s.emitTexts cs with acc := acc, cnt := cnt, gcnt := gcnt } := by
  induction cs generalizing s with
  | nil => rfl
  | cons c cs ih => rw [emitTexts_cons, emitText_working, ih, emitTexts_cons]

/-! ### Settling a command -/

@[simp] theorem settle_ok (s t : State) : settle s (.ok t) = t := rfl

@[simp] theorem settle_error (s : State) (f : RaisedFault) : settle s (.error f) = raiseDecodeFault f s := rfl

/-- Everything `settle` can answer: the completed state, or the fault record on the state before. -/
theorem settle_cases (s : State) (r : Except RaisedFault State) :
    (∃ t, r = .ok t ∧ settle s r = t) ∨ (∃ f, r = .error f ∧ settle s r = raiseDecodeFault f s) := by
  cases r with
  | ok t => exact .inl ⟨t, rfl, rfl⟩
  | error f => exact .inr ⟨f, rfl, rfl⟩

theorem insideActive_of_active (s : State) (run : State → State) (h : s.phase = .active) :
    insideActive s run = run s := if_pos h

theorem insideActive_of_not_active (s : State) (run : State → State) (h : s.phase ≠ .active) :
    insideActive s run = raiseCmdError .badSequence s := if_neg h

theorem outsideActive_of_active (s : State) (run : State → State) (h : s.phase = .active) :
    outsideActive s run = raiseCmdError .badSequence s := if_pos h

theorem outsideActive_of_not_active (s : State) (run : State → State) (h : s.phase ≠ .active) :
    outsideActive s run = run s := if_neg h

/-! ### Assigning ACC in the Base85 decoder -/

/-- Everything the assignment can answer (43_base85.md R186). -/
theorem assignAcc85_cases (v : Nat) (c : Byte) (s : State) :
    (2 ^ 32 ≤ v ∧ s.cfg.b85Overflow = .fault ∧ assignAcc85 v c s = .error ⟨.b85Overflow, c⟩) ∨
      ((v < 2 ^ 32 ∨ s.cfg.b85Overflow = .wrap) ∧
        assignAcc85 v c s = .ok { s with acc := BitVec.ofNat 32 v }) := by
  unfold assignAcc85
  split
  · next h => exact .inl ⟨h.1, h.2, rfl⟩
  · next h =>
    refine .inr ⟨?_, rfl⟩
    cases hp : s.cfg.b85Overflow
    · exact .inr rfl
    · exact .inl (Nat.lt_of_not_le fun hv => h ⟨hv, hp⟩)

/-! ### The loops, with the fuel they are given -/

/-- The padding loop writes one `=` for each character missing to a multiple of 8 and leaves GCNT at 0
(42_base32.md R163). -/
theorem padToEight_eq (fuel : Nat) (s : State) (h : (8 - s.gcnt.toNat) % 8 ≤ fuel) :
    padToEight fuel s =
      { s.emitTexts (List.replicate ((8 - s.gcnt.toNat) % 8) padChar) with gcnt := 0 } := by
  induction fuel generalizing s with
  | zero =>
    have h0 : s.gcnt = 0 := by
      apply BitVec.eq_of_toNat_eq; have := s.gcnt.isLt; simp; omega
    simp [padToEight, h0]
    cases s; simp_all
  | succ n ih =>
    unfold padToEight
    split
    · next h0 => simp [h0]; cases s; simp_all
    · next h0 =>
      have hne : s.gcnt.toNat ≠ 0 := fun hz => h0 (BitVec.eq_of_toNat_eq (by simpa using hz))
      have hlt := s.gcnt.isLt
      have hg : (s.gcnt + 1).toNat = (s.gcnt.toNat + 1) % 8 := by simp [BitVec.toNat_add]
      have hc : (8 - s.gcnt.toNat) % 8 = (8 - (s.gcnt.toNat + 1) % 8) % 8 + 1 := by omega
      dsimp only
      rw [ih _ (by simp only [emitText_gcnt, hg]; omega)]
      simp only [emitText_gcnt, hg, hc, List.replicate_succ, emitTexts_cons]
      have hw := emitTexts_working (s.emitText padChar)
        (List.replicate ((8 - (s.gcnt.toNat + 1) % 8) % 8) padChar) s.acc s.cnt (s.gcnt + 1)
      have hs : { s.emitText padChar with acc := s.acc, cnt := s.cnt, gcnt := s.gcnt + 1 } =
          { s.emitText padChar with gcnt := s.gcnt + 1 } := by
        rw [← emitText_acc s padChar, ← emitText_cnt s padChar]
      rw [hs] at hw
      rw [hw]
      have ha := emitTexts_acc (s.emitText padChar)
        (List.replicate ((8 - (s.gcnt.toNat + 1) % 8) % 8) padChar)
      have hb := emitTexts_cnt (s.emitText padChar)
        (List.replicate ((8 - (s.gcnt.toNat + 1) % 8) % 8) padChar)
      rw [emitText_acc] at ha
      rw [emitText_cnt] at hb
      rw [← ha, ← hb]

/-! ### Running -/

@[simp] theorem runFor_zero (s : State) : runFor 0 s = .next s := rfl

/-- One more step at the front of a run. -/
theorem runFor_succ_of_next (n : Nat) (s t : State) (h : step s = .next t) :
    runFor (n + 1) s = runFor n t := by
  rw [runFor, h]

/-- One more step at the front of a run of any machine behind the host's interface. -/
theorem core_run_of_next (M : Host.Core) (n : Nat) (s t : M.State) (h : M.step s = .next t) :
    M.run (n + 1) s = M.run n t := by
  show (match M.step s with | .next t => M.run n t | .fault f => .fault f | .refused r => .refused r) = _
  rw [h]

/-- A refusal ends the run of any machine behind the host's interface. -/
theorem core_run_of_refused (M : Host.Core) (n : Nat) (s : M.State) (r : M.Refusal)
    (h : M.step s = .refused r) : M.run (n + 1) s = .refused r := by
  show (match M.step s with | .next t => M.run n t | .fault f => .fault f | .refused r => .refused r) = _
  rw [h]

/-- The run that claims speak of is the run of the machine the host holds. -/
theorem runFor_eq_core_run (n : Nat) (s : State) : runFor n s = Host.Core.run Sys2Proof.core n s := by
  induction n generalizing s with
  | zero => rfl
  | succ n ih =>
    cases h : step s with
    | next t =>
      refine Eq.trans ?_ (core_run_of_next Sys2Proof.core n s t h).symm
      exact (runFor_succ_of_next n s t h).trans (ih t)
    | fault f => cases f
    | refused r =>
      refine Eq.trans ?_ (core_run_of_refused Sys2Proof.core n s r h).symm
      rw [runFor, h]
      rfl

@[simp] theorem issue_nil (s : State) : issue [] s = .next { s with port := [] } := rfl

/-! ### Symbols -/

@[simp] theorem alphabet91_length (cfg : Config) : (alphabet91 cfg).length = 91 := by
  simp [alphabet91]

/-- The values IDX91 can answer. -/
theorem idx91_lt (cfg : Config) (c : Byte) (d : Nat) (h : idx91 cfg c = some d) : d < 91 := by
  have h' := List.findIdx?_eq_some_iff_getElem.mp h
  obtain ⟨hlt, _⟩ := h'
  simpa using hlt

/-- The values DVAL can answer. -/
theorem digitValue_lt (c : Byte) (d : Nat) (h : digitValue c = some d) : d < 16 := by
  simp only [digitValue] at h
  split at h
  · simp at h; omega
  · split at h
    · simp at h; omega
    · split at h
      · simp at h; omega
      · simp at h

/-- The values IDX32 can answer. -/
theorem idx32_lt_32 (c : Byte) (d : Nat) (h : idx32 c = some d) : d < 32 := by
  simp only [idx32] at h
  split at h
  · simp at h; omega
  · split at h
    · simp at h; omega
    · simp at h

end Sys2Proof.Machine
end

