-- ==== Sys2Proof/Laws/PerInstr.lean ====
section
/-! SUPPORT. A statement about each command as syntax: its word carries the match of its row of
spec/opcode_table.json under the row's mask. -/

namespace Sys2Proof.Laws.TableSelects

/-- The row's `mask` (spec/opcode_table.json). -/
def mask : Instr → CommandWord
  | .push _ => 0xFF00
  | .setll _ => 0xF000
  | .setsep _ _ => 0xFE00
  | .openEB02 | .openEB08 | .openEB10 | .openEB16 | .openEB32 | .openERsvd5 | .openEB85 | .openEB91
  | .openDB02 | .openDB08 | .openDB10 | .openDB16 | .openDB32 | .openDRsvd5 | .openDB85 | .openDB91
  | .flush => 0xFFFF

/-- The row's `match` (spec/opcode_table.json). -/
def pattern : Instr → CommandWord
  | .openEB02 => 0x1000
  | .openEB08 => 0x1001
  | .openEB10 => 0x1002
  | .openEB16 => 0x1003
  | .openEB32 => 0x1004
  | .openERsvd5 => 0x1005
  | .openEB85 => 0x1006
  | .openEB91 => 0x1007
  | .openDB02 => 0x1008
  | .openDB08 => 0x1009
  | .openDB10 => 0x100A
  | .openDB16 => 0x100B
  | .openDB32 => 0x100C
  | .openDRsvd5 => 0x100D
  | .openDB85 => 0x100E
  | .openDB91 => 0x100F
  | .push _ => 0x2000
  | .flush => 0x3000
  | .setll _ => 0x4000
  | .setsep _ _ => 0x5000

/-- The command's word is selected by its own row. -/
def Statement (i : Instr) : Prop := encode i &&& mask i = pattern i

theorem openEB02 : Statement .openEB02 := rfl
theorem openEB08 : Statement .openEB08 := rfl
theorem openEB10 : Statement .openEB10 := rfl
theorem openEB16 : Statement .openEB16 := rfl
theorem openEB32 : Statement .openEB32 := rfl
theorem openERsvd5 : Statement .openERsvd5 := rfl
theorem openEB85 : Statement .openEB85 := rfl
theorem openEB91 : Statement .openEB91 := rfl
theorem openDB02 : Statement .openDB02 := rfl
theorem openDB08 : Statement .openDB08 := rfl
theorem openDB10 : Statement .openDB10 := rfl
theorem openDB16 : Statement .openDB16 := rfl
theorem openDB32 : Statement .openDB32 := rfl
theorem openDRsvd5 : Statement .openDRsvd5 := rfl
theorem openDB85 : Statement .openDB85 := rfl
theorem openDB91 : Statement .openDB91 := rfl
theorem push (byte : Byte) : Statement (.push byte) := by
  revert byte; unfold Statement; decide
theorem flush : Statement .flush := rfl
theorem setll (len : BitVec 12) : Statement (.setll len) := by
  revert len; unfold Statement; decide +kernel
theorem setsep (sel : BitVec 1) (byte : Byte) : Statement (.setsep sel byte) := by
  revert sel byte; unfold Statement; decide

end Sys2Proof.Laws.TableSelects
end

