-- ==== Sys2Proof/Tests/Slice0.lean ====
section
/-! SUPPORT. Tests on fixed values, taken from 95_test_vectors.md and the examples of the rules, and, for every
statement with hypotheses, a state and operands that meet them (`witness_<statement>…`). -/

namespace Sys2Proof.Tests

-- One theorem at a time: a thread for each would not fit under the memory limit.
set_option Elab.async false

open Sys2Proof Sys2Proof.Machine

/-- `p` of every member of a list. -/
abbrev allOf {α : Type} (l : List α) (p : α → Prop) [DecidablePred p] : Prop := (l.all fun x => decide (p x)) = true

/-- An invocation in progress right after an OPEN from reset. -/
def act (d : Dir) (m : Mode) : State := { State.reset with phase := .active, dir := d, mode := m }

/-- The same with a tail in ACC, CNT and GCNT. -/
def reg (d : Dir) (m : Mode) (acc : BitVec 32) (cnt : BitVec 6) (gcnt : BitVec 3) : State :=
  { act d m with acc := acc, cnt := cnt, gcnt := gcnt }

/-- A Base91 decode state with a pending symbol. -/
def pending (acc : BitVec 32) (cnt : BitVec 6) (pend : BitVec 7) : State :=
  { act .decode .base91 with acc := acc, cnt := cnt, pend := pend, pendv := true }

/-- Outside an invocation, with a line length and a position. -/
def idleIn (p : Phase) (llen lpos : BitVec 12) : State := { State.reset with phase := p, llen := llen, lpos := lpos }

/-- `s` with the host's next transactions given. -/
def onPort (s : State) (p : List PortEvent) : State := { s with port := p }

/-- The state after one command; no command stops. -/
def after (i : Instr) (s : State) : State :=
  match exec i s with
  | .next t => t
  | .fault f => nomatch f
  | .refused _ => s

/-- The state after one step on one word of CMD. -/
def afterWord (w : CommandWord) (s : State) : State :=
  match step { s with port := [.command w] } with
  | .next t => t
  | .fault f => nomatch f
  | .refused _ => s

/-! ### Decoding (30_encoding.md R80 to R87) -/

/-- One word per format, written out field by field from 30_encoding.md A.1. -/
theorem test_decode_formats :
    decode (0b0001#4 ++ 0b00000000#8 ++ 0b1#1 ++ 0b110#3) = .ok .openDB85 ∧
      decode (0b0010#4 ++ 0b0000#4 ++ 0b01010100#8) = .ok (.push 0x54) ∧
      decode (0b0011#4 ++ 0b000000000000#12) = .ok .flush ∧
      decode (0b0100#4 ++ 0b000001001100#12) = .ok (.setll 76) ∧
      decode (0b0101#4 ++ 0b000#3 ++ 0b1#1 ++ 0b00001010#8) = .ok (.setsep 1 0x0A) := by decide +kernel

/-- The table of OPEN words after 30_encoding.md R86. -/
theorem test_decode_open :
    decode 0x1000 = .ok .openEB02 ∧ decode 0x1001 = .ok .openEB08 ∧ decode 0x1002 = .ok .openEB10 ∧
      decode 0x1003 = .ok .openEB16 ∧ decode 0x1004 = .ok .openEB32 ∧ decode 0x1005 = .ok .openERsvd5 ∧
      decode 0x1006 = .ok .openEB85 ∧ decode 0x1007 = .ok .openEB91 ∧ decode 0x1008 = .ok .openDB02 ∧
      decode 0x1009 = .ok .openDB08 ∧ decode 0x100A = .ok .openDB10 ∧ decode 0x100B = .ok .openDB16 ∧
      decode 0x100C = .ok .openDB32 ∧ decode 0x100D = .ok .openDRsvd5 ∧ decode 0x100E = .ok .openDB85 ∧
      decode 0x100F = .ok .openDB91 := by decide +kernel

/-- The edges of the map by major opcode (30_encoding.md A.3; 95_test_vectors.md K2 to K8). -/
theorem test_decode_illegal :
    allOf [0x0000#16, 0x0FFF#16, 0x1010#16, 0x1FFF#16, 0x2100#16, 0x2FFF#16, 0x3001#16, 0x3FFF#16, 0x5200#16,
      0x5FFF#16, 0x6000#16, 0xFFFF#16] fun w => decode w = .error .illegalCommand := by decide +kernel

/-- 30_encoding.md R88. -/
theorem test_assembler :
    assemblerLine .openDB91 = some "OPEN D,B91" ∧ assemblerLine (.setsep 1 0x0A) = some "SETSEP 1,10" ∧
      assemblerLine .openERsvd5 = none ∧ setsepCRLF.map encode = [0x500D, 0x510A] := by decide +kernel

theorem test_assembler_numbers :
    operandValue ['0', 'x', '5', '4'] = some 84 ∧ operandValue ['8', '4'] = some 84 ∧
      operandValue ['\'', 'T', '\''] = some 84 ∧ operandValue ['8', 'A'] = none := by decide +kernel
theorem test_assembler_text :
    unquote ['T', '\\', 'n', '\\', 'x', 'F', '0', '\\', '"'] = some [0x54, 0x0A, 0xF0, 0x22] ∧
      unquote ['\\', 'q'] = none := by decide +kernel

/-! ### Legal instances (00_scope.md R5, R6) -/

/-- The defaults are legal. -/
theorem test_default_wf : Config.default.wf = true := by decide +kernel

/-- B91PUNCT with its first character replaced. -/
def badPunct (c : Byte) : Config :=
  { Config.default with b91Punct := Config.defaultB91Punct.set 0 c }

theorem test_wf_refuses_repeat : (badPunct 0x23).punctDistinct = false := by decide +kernel
theorem test_wf_refuses_unprintable : (badPunct 0x7F).punctPrintable = false := by decide +kernel
theorem test_wf_refuses_letter : (badPunct 0x41).punctNotAlphanumeric = false := by decide +kernel
theorem test_wf_refuses_skippable_punct : (badPunct 0x20).punctNotSkippable = false := by decide +kernel
theorem test_wf_refuses_skipx_in_alphabet :
    Config.skipxDisjoint { Config.default with skipx := { Config.defaultSkipx with b16 := [0x61] } } .base16 =
      false := by decide +kernel
theorem test_wf_refuses_pad :
    Config.skipxNoPad { Config.default with skipx := { Config.defaultSkipx with b32 := [0x3D] } } = false := by
  decide +kernel
theorem test_wf_refuses_z :
    Config.skipxNoZ { Config.default with skipx := { Config.defaultSkipx with b85 := [0x7A] } } = false := by
  decide +kernel

/-! ### The command layer (95_test_vectors.md K1 to K29) -/

theorem test_k1_reset_views : State.reset.statusWord = 0 ∧ State.reset.configWord = 0x000A1000 := by decide +kernel
theorem test_k2_illegal : (afterWord 0x0000 State.reset).statusWord = 0x0000000C := by decide +kernel
theorem test_k9_push_in_idle : (afterWord 0x2041 State.reset).statusWord = 0x00000014 := by decide +kernel
theorem test_k11_reserved_encode : (afterWord 0x1005 State.reset).statusWord = 0x0000001C := by decide +kernel
theorem test_k12_reserved_decode : (afterWord 0x100D State.reset).statusWord = 0x0000001C := by decide +kernel
theorem test_k13_sequence_first : (afterWord 0x1005 (act .encode .base32)).statusWord = 0x04000015 := by
  decide +kernel
theorem test_k14_setll_in_active :
    (afterWord 0x4010 (act .encode .base32)).statusWord = 0x04000015 ∧
      (afterWord 0x4010 (act .encode .base32)).configWord = 0x000A1000 := by decide +kernel
theorem test_k16_first_code_kept : (afterWord 0x2041 (afterWord 0x0000 State.reset)).cecode = .illegalCommand := by
  decide +kernel
theorem test_k18_setll : (afterWord 0x404C State.reset).configWord = 0x000A104C := by decide +kernel
theorem test_k19_setsep0 : (afterWord 0x500D State.reset).configWord = 0x000D1000 := by decide +kernel
theorem test_k21_setsep1 : (afterWord 0x510A State.reset).configWord = 0x0A0A2000 := by decide +kernel

/-- 10_state.md R30 with the statuses of 95_test_vectors.md: a fresh OPEN of each row. -/
theorem test_open_status :
    allOf [(0x1000#16, 0x00000001#32), (0x1001#16, 0x01000001#32), (0x1002#16, 0x02000001#32),
      (0x1003#16, 0x03000001#32), (0x1004#16, 0x04000001#32), (0x1006#16, 0x06000001#32),
      (0x1007#16, 0x07000001#32), (0x1008#16, 0x08000001#32), (0x1009#16, 0x09000001#32),
      (0x100A#16, 0x0A000001#32), (0x100B#16, 0x0B000001#32), (0x100C#16, 0x0C000001#32),
      (0x100E#16, 0x0E000001#32), (0x100F#16, 0x0F000001#32)] fun p =>
      (afterWord p.1 State.reset).statusWord = p.2 := by decide +kernel

/-- K28: OPEN from FAULT clears FCODE and FCHAR and keeps FSTICKY. -/
theorem test_k28_open_leaves_fault :
    (after (.push 0x67) (act .decode .base16)).statusWord = 0x0B670123 ∧
      (after .openDB16 (after (.push 0x67) (act .decode .base16))).statusWord = 0x0B000021 := by decide +kernel

/-- K29: RESET in the middle of an invocation. -/
theorem test_k29_reset :
    (match step { act .encode .base32 with acc := 4, cnt := 3, out := [0x4B], port := [.reset] } with
      | .next t => decide (t = State.reset)
      | _ => false) = true := by decide +kernel

/-! ### PUSH and FLUSH, one step each (the worked examples of files 41 to 44) -/

theorem test_push_e_b02 : (after (.push 0x54) (act .encode .base02)).out =
    [0x30, 0x31, 0x30, 0x31, 0x30, 0x31, 0x30, 0x30] := by decide +kernel
theorem test_push_e_b10 : (after (.push 0x63) (act .encode .base10)).out = [0x30, 0x39, 0x39] := by decide +kernel
theorem test_push_d_b08_range :
    (after (.push 0x30) { act .decode .base08 with acc := 32, gcnt := 2 }).statusWord = 0x09300523 := by
  decide +kernel
theorem test_push_d_b16 : (after (.push 0x46) { act .decode .base16 with acc := 15, gcnt := 1 }).out = [0xFF] := by
  decide +kernel
theorem test_push_e_b32 :
    (after (.push 0x65) { act .encode .base32 with acc := 4, cnt := 3, gcnt := 1 }) =
      { act .encode .base32 with acc := 1, cnt := 1, gcnt := 3, out := [0x52, 0x53] } := by decide +kernel
theorem test_flush_e_b32_wrapped :
    (after .flush { act .encode .base32 with acc := 0, cnt := 2, gcnt := 6, llen := 4, lpos := 2 }).out =
      [0x41, 0x3D, 0x0A] := by decide +kernel
theorem test_push_d_b32 :
    (after (.push 0x58) { act .decode .base32 with acc := 50, cnt := 7 }) =
      { act .decode .base32 with acc := 7, cnt := 4, out := [0x65] } := by decide +kernel
theorem test_flush_d_b32_tail :
    (after .flush { act .decode .base32 with acc := 1, cnt := 3 }).statusWord = 0x0C000423 := by decide +kernel
theorem test_push_e_b85 :
    (after (.push 0x74) { act .encode .base85 with acc := 0x546573, gcnt := 3 }).out =
      [0x3C, 0x2B, 0x55, 0x2C, 0x6D] := by decide +kernel
theorem test_flush_e_b85 : (after .flush { act .encode .base85 with acc := 0x21, gcnt := 1 }).out = [0x2B, 0x54] := by
  decide +kernel
theorem test_push_d_b85_wrap :
    (after (.push 0x22) { act .decode .base85 with acc := 4294967295, gcnt := 4 }).out = [0, 0, 0, 0] := by
  decide +kernel
theorem test_flush_d_b85 :
    (after .flush { act .decode .base85 with acc := 553326625, gcnt := 2 }).out = [0x21] := by decide +kernel
theorem test_push_e_b91 :
    (after (.push 0x65) { act .encode .base91 with acc := 0x54, cnt := 8 }) =
      { act .encode .base91 with acc := 3, cnt := 3, out := [0x22, 0x4F] } := by decide +kernel
theorem test_flush_e_b91 : (after .flush { act .encode .base91 with acc := 29, cnt := 6 }).out = [0x64] := by
  decide +kernel
theorem test_push_d_b91 :
    (after (.push 0x4B) { act .decode .base91 with acc := 5, cnt := 5, pend := 13, pendv := true }) =
      { act .decode .base91 with acc := 0, cnt := 2, out := [0x65, 0x73] } := by decide +kernel
theorem test_flush_d_b91 :
    (after .flush { act .decode .base91 with acc := 0, cnt := 2, pend := 29, pendv := true }).out = [0x74] := by
  decide +kernel

/-- 40_control.md R120 with the separator CR LF (95_test_vectors.md 2.10). -/
theorem test_framer_crlf :
    ({ State.reset with llen := 2, lpos := 1, sep0 := 0x0D, sep1 := 0x0A, seplen := 2 }.emitText 0x42).out =
      [0x42, 0x0D, 0x0A] := by decide +kernel

/-- The interface the host calls: a PUSH right after reset is refused, an OPEN is accepted. -/
theorem test_with_fetch_word :
    decodeTableWord 16 0x2000 = some (.push 0) ∧ decodeTableWord 16 0 = none ∧
      (match step (State.reset.withFetchWord 16 0x1004) with
        | .next t => decide (t = act .encode .base32)
        | _ => false) = true := by decide +kernel

/-! ### Witnesses: the hypotheses of each statement met, at the edges of its clauses -/

theorem witness_EncodeOfDecode : decode 0x20FF = .ok (.push 0xFF) := by decide +kernel
theorem witness_IllegalWordsRefused :
    (onPort State.reset [.command 0x3001]).port = .command 0x3001 :: [] ∧ ¬ inLegalRange 0x3001 ∧
      (allOf [0x1000#16, 0x100F#16, 0x2000#16, 0x20FF#16, 0x3000#16, 0x4000#16, 0x4FFF#16, 0x5000#16, 0x51FF#16] fun w =>
        inLegalRange w) ∧
      allOf [0x0FFF#16, 0x1010#16, 0x1FFF#16, 0x2100#16, 0x2FFF#16, 0x3FFF#16, 0x5200#16] fun w => ¬ inLegalRange w := by
  decide +kernel
theorem witness_StepRunsDecodedCommand :
    (onPort State.reset [.command 0x404C]).port = .command 0x404C :: [] ∧
      decode 0x404C = .ok (.setll 76) := by decide +kernel
theorem witness_ResetClearsEverything : (onPort (act .encode .base32) [.reset]).port = .reset :: [] := by
  decide +kernel
theorem witness_ResetKeepsParametersAndPort :
    (onPort (act .decode .base91) [.reset, .command 0x1000]).port = .reset :: [.command 0x1000] := by decide +kernel
theorem witness_EveryStepAnswersNext : (act .encode .base32).port = [] := by decide +kernel
theorem witness_OpenCommandResult :
    (Instr.openEB02, Dir.encode, Mode.base02) ∈ openRows ∧ (Instr.openDB91, Dir.decode, Mode.base91) ∈ openRows ∧
      (allOf [Phase.idle, .done, .fault] fun p => (idleIn p 0 0).phase ≠ .active) ∧
      Instr.openDRsvd5 ∈ openRows.map Prod.fst ++ reservedRows ∧ (act .encode .base91).phase = .active := by
  decide +kernel
theorem witness_SetllResult : State.reset.phase ≠ .active ∧ (act .encode .base32).phase = .active := by decide +kernel
theorem witness_SetsepResult : State.reset.phase ≠ .active ∧ (act .decode .base32).phase = .active := by
  decide +kernel
theorem witness_SequencingTable :
    allowedIn .flush State.reset.phase = false ∧ allowedIn .openEB02 (act .encode .base02).phase = false ∧
      allowedIn (.push 0) (act .encode .base02).phase = true ∧ Instr.push 0 ∉ reservedRows ∧
      allowedIn .openEB02 State.reset.phase = true ∧ Instr.openEB02 ∉ reservedRows := by decide +kernel
theorem witness_PhaseTransitions :
    (∃ t, step (onPort (reg .decode .base85 0 0 1) [.command 0x3000]) = .next t ∧ t.phase = .fault) ∧
      (∃ t, step (onPort (act .encode .base85) [.command 0x3000]) = .next t ∧ t.phase = .done) ∧
      (∃ t, step (onPort (act .encode .base85) [.reset]) = .next t ∧ t.phase = .idle) ∧
      (∃ t, step (act .encode .base85) = .next t ∧ t.phase = .active) ∧
      (∃ t, step (onPort (act .encode .base85) [.command 0x0000]) = .next t ∧ t.phase = .active) ∧
      (∃ t, step (onPort State.reset [.command 0x1006]) = .next t ∧ t.phase = .active) :=
  ⟨⟨_, rfl, by decide +kernel⟩,
    ⟨_, rfl, by decide +kernel⟩,
    ⟨_, rfl, by decide +kernel⟩,
    ⟨_, rfl, by decide +kernel⟩,
    ⟨_, rfl, by decide +kernel⟩,
    ⟨_, rfl, by decide +kernel⟩⟩
theorem witness_DecodeFaultIsPrecise :
    (∃ t, exec (.push 0x67) (act .decode .base16) = .next t ∧ (act .decode .base16).phase ≠ .fault ∧
      t.phase = .fault) ∧
    (∃ t, exec .flush (reg .decode .base85 0 0 1) = .next t ∧ t.phase = .fault) :=
  ⟨⟨_, rfl, by decide +kernel, by decide +kernel⟩, ⟨_, rfl, by decide +kernel⟩⟩
/-- A state in which both sticky bits are set. -/
def stuckBits : State := { State.reset with cmderr := true, cecode := .badSequence, fsticky := true }
theorem witness_StickyRecordKept :
    (∃ t, step (onPort stuckBits [.command 0x0000]) = .next t ∧ t.cecode = .badSequence ∧ t.fsticky = true) ∧
      (∃ t, step (onPort State.reset [.command 0x2000]) = .next t ∧ State.reset.cmderr = false ∧ t.cmderr = true) ∧
      (onPort State.reset [.command 0x0000]).port.head? ≠ some .reset :=
  ⟨⟨_, rfl, by decide +kernel⟩, ⟨_, rfl, by decide +kernel⟩, by decide +kernel⟩
theorem witness_ConfigurationFixedInActive :
    (∃ t, step (onPort (act .encode .base32) [.command 0x4FFF]) = .next t ∧ t.llen = 0) ∧
      (∃ t, step (onPort State.reset [.command 0x4FFF]) = .next t ∧ t.llen ≠ State.reset.llen) ∧
      (∃ t, step (onPort State.reset [.command 0x510A]) = .next t ∧ t.seplen ≠ State.reset.seplen) ∧
      (∃ t, step (onPort (idleIn .done 0 0) [.command 0x100F]) = .next t ∧
        (t.dir, t.mode) ≠ ((idleIn .done 0 0).dir, (idleIn .done 0 0).mode)) :=
  ⟨⟨_, rfl, by decide +kernel⟩, ⟨_, rfl, by decide +kernel⟩, ⟨_, rfl, by decide +kernel⟩,
    ⟨_, rfl, by decide +kernel⟩⟩
theorem witness_OutOnlyGrows :
    ∃ t, step (onPort (act .encode .base16) [.command 0x2054]) = .next t ∧ t.out = [0x35, 0x34] ∧
      (onPort (act .encode .base16) [.command 0x2054]).port.head? ≠ some .reset :=
  ⟨_, rfl, by decide +kernel⟩
theorem witness_ParametersNeverChange :
    ∃ t, step (onPort (act .encode .base16) [.reset]) = .next t ∧ t.phase = .idle := ⟨_, rfl, by decide +kernel⟩
/-- A line length of 4095 one character before its end, and the two separator lengths. -/
theorem witness_EmissionPrimitives :
    State.reset.llen = 0 ∧
      ((idleIn .active 4095 4093).llen ≠ 0 ∧
        (idleIn .active 4095 4093).lpos + 1 ≠ (idleIn .active 4095 4093).llen) ∧
      ((idleIn .active 4095 4094).lpos + 1 = (idleIn .active 4095 4094).llen ∧
        (idleIn .active 4095 4094).seplen ≠ 2) ∧
      ((idleIn .active 1 0).lpos + 1 = (idleIn .active 1 0).llen ∧
        (after (.setsep 1 0x0A) State.reset).seplen = 2) := by decide +kernel
theorem witness_FramerInsertsSeparators :
    State.reset.phase ≠ .active ∧ (idleIn .done 1 0).phase ≠ .active ∧ 0 < (idleIn .done 1 0).llen.toNat := by
  decide +kernel
theorem witness_WrappedTextDecodesAlike :
    (idleIn .done 4 2).phase ≠ .active ∧ State.reset.phase ≠ .active ∧ State.reset.cfg = (idleIn .done 4 2).cfg ∧
      separatorSkippable (idleIn .done 4 2) .base85 := by decide +kernel
theorem witness_SkippedCharactersInvisible : (idleIn .fault 0 0).phase ≠ .active := by decide +kernel
theorem witness_SkipFilter :
    (act .decode .base16).runs .decode .base16 ∧ skippable (act .decode .base16).cfg .base16 0x2D = true := by
  decide +kernel
theorem witness_PushEncodeRadix :
    (act .encode .base02).runs .encode .base02 ∧ (act .encode .base08).runs .encode .base08 ∧
      (act .encode .base10).runs .encode .base10 ∧ (act .encode .base16).runs .encode .base16 := by decide +kernel
/-- CNT 1 gives one symbol, CNT 2 two; 0 and 4 are the ends. -/
theorem witness_PushEncodeBase32 :
    allOf [(0#32, 0#6), (1#32, 1#6), (3#32, 2#6), (15#32, 4#6)] fun n =>
      (reg .encode .base32 n.1 n.2 0).runs .encode .base32 ∧ (reg .encode .base32 n.1 n.2 0).cnt.toNat ≤ 4 ∧
      (reg .encode .base32 n.1 n.2 0).acc.toNat < 2 ^ (reg .encode .base32 n.1 n.2 0).cnt.toNat := by
  decide +kernel
theorem witness_FlushEncodeBase32 :
    allOf [(0#32, 0#6), (1#32, 1#6), (15#32, 4#6)] fun n =>
      (reg .encode .base32 n.1 n.2 0).runs .encode .base32 ∧ (reg .encode .base32 n.1 n.2 0).cnt.toNat ≤ 4 ∧
      (reg .encode .base32 n.1 n.2 0).acc.toNat < 2 ^ (reg .encode .base32 n.1 n.2 0).cnt.toNat := by
  decide +kernel
/-- The third byte of a group; the fourth after three zero bytes; the fourth of the largest group. -/
theorem witness_PushEncodeBase85 :
    allOf [(0xFFFF#32, 2#3), (0#32, 3#3), (0xFFFFFF#32, 3#3)] fun n =>
      (reg .encode .base85 n.1 0 n.2).runs .encode .base85 ∧ (reg .encode .base85 n.1 0 n.2).gcnt.toNat ≤ 3 ∧
      (reg .encode .base85 n.1 0 n.2).acc.toNat < 2 ^ (8 * (reg .encode .base85 n.1 0 n.2).gcnt.toNat) := by
  decide +kernel
theorem witness_FlushEncodeBase85 :
    allOf [(0#32, 0#3), (0xFF#32, 1#3), (0xFFFFFF#32, 3#3)] fun n =>
      (reg .encode .base85 n.1 0 n.2).runs .encode .base85 ∧ (reg .encode .base85 n.1 0 n.2).gcnt.toNat ≤ 3 ∧
      (reg .encode .base85 n.1 0 n.2).acc.toNat < 2 ^ (8 * (reg .encode .base85 n.1 0 n.2).gcnt.toNat) := by
  decide +kernel
/-- CNT 5 stays below 14 bits, CNT 6 does not; ACC 88 and 89 are the two sides of the 13-bit test. -/
theorem witness_PushEncodeBase91 :
    allOf [(31#32, 5#6), (24#32, 6#6), (88#32, 13#6), (89#32, 13#6)] fun n =>
      (reg .encode .base91 n.1 n.2 0).runs .encode .base91 ∧ (reg .encode .base91 n.1 n.2 0).cnt.toNat ≤ 13 ∧
      (reg .encode .base91 n.1 n.2 0).acc.toNat < 2 ^ (reg .encode .base91 n.1 n.2 0).cnt.toNat := by
  decide +kernel
/-- No bits; 8 bits of 0; 7 bits of 91; 7 bits of 90. -/
theorem witness_FlushEncodeBase91 :
    (reg .encode .base91 0 0 0).runs .encode .base91 ∧ (reg .encode .base91 0 0 0).cnt = 0 ∧
      ((reg .encode .base91 0 8 0).cnt ≠ 0 ∧ 8 ≤ (reg .encode .base91 0 8 0).cnt.toNat) ∧
      ((reg .encode .base91 91 7 0).cnt ≠ 0 ∧ 91 ≤ (reg .encode .base91 91 7 0).acc.toNat) ∧
      ((reg .encode .base91 90 7 0).cnt ≠ 0 ∧ (reg .encode .base91 90 7 0).cnt.toNat < 8 ∧
        (reg .encode .base91 90 7 0).acc.toNat < 91) := by decide +kernel
theorem witness_FlushRadix :
    (Mode.base10, 10, 3) ∈ radixModes ∧ (act .encode .base10).runs .encode .base10 ∧
      (act .decode .base10).runs .decode .base10 := by decide +kernel
/-- Base08: `8` is no digit; `7` and `0` as third digits after ACC 31 (377 octal) and 32 (400 octal). -/
theorem witness_PushDecodeRadix :
    (Mode.base08, 8, 3) ∈ radixModes ∧ (reg .decode .base08 31 0 2).runs .decode .base08 ∧
      (allOf [0x38#8, 0x37#8, 0x30#8] fun c => skippable (reg .decode .base08 31 0 2).cfg .base08 c = false) ∧
      digitValue 0x38 = some 8 ∧ digitValue 0x37 = some 7 ∧ digitValue 0x30 = some 0 ∧
      (reg .decode .base08 31 0 2).gcnt.toNat + 1 = 3 ∧ (reg .decode .base08 31 0 2).acc.toNat * 8 + 7 ≤ 255 ∧
      255 < (reg .decode .base08 32 0 2).acc.toNat * 8 + 0 ∧ (reg .decode .base08 4 0 1).gcnt.toNat + 1 ≠ 3 ∧
      (reg .decode .base08 32 0 2).cfg.radixRange = .fault := by decide +kernel
/-- Base32 around the edges of its ranges. -/
theorem witness_InvalidSymbolByMode :
    (act .decode .base32).runs .decode .base32 ∧ (act .decode .base32).padseen = false ∧
      (after (.push 0x3D) (act .decode .base32)).runs .decode .base32 ∧
      (after (.push 0x3D) (act .decode .base32)).padseen = true ∧
      (allOf [0x31#8, 0x32#8, 0x37#8, 0x38#8, 0x40#8, 0x41#8, 0x5A#8, 0x5B#8] fun c =>
        skippable (act .decode .base32).cfg .base32 c = false ∧ isSpecial .base32 c = false) ∧
      (allOf [0x32#8, 0x37#8, 0x41#8, 0x5A#8] fun c => symbolTable Config.default .base32 c = true) ∧
      (allOf [0x31#8, 0x38#8, 0x40#8, 0x5B#8] fun c => symbolTable Config.default .base32 c = false) := by
  decide +kernel
theorem witness_HighUnitsFault :
    (act .decode .base91).runs .decode .base91 ∧
      (∀ x ∈ skipExtra (act .decode .base91).cfg .base91, x.toNat < 0x80) ∧
      (∀ x ∈ (act .decode .base91).cfg.b91Punct.toList, x.toNat < 0x80) ∧ 0x80 ≤ (0x80 : Byte).toNat := by
  decide +kernel
/-- `=`, a non-member and a member; CNT 2 stays below 8 bits, CNT 3 and 7 do not. -/
theorem witness_PushDecodeBase32 :
    (allOf [0x3D#8, 0x31#8, 0x41#8] fun c => skippable (act .decode .base32).cfg .base32 c = false) ∧
      idx32 0x31 = none ∧ idx32 0x41 = some 0 ∧
      allOf [(3#32, 2#6), (7#32, 3#6), (127#32, 7#6)] fun n =>
        (reg .decode .base32 n.1 n.2 0).runs .decode .base32 ∧ (reg .decode .base32 n.1 n.2 0).padseen = false ∧
        (reg .decode .base32 n.1 n.2 0).cnt.toNat ≤ 7 ∧
        (reg .decode .base32 n.1 n.2 0).acc.toNat < 2 ^ (reg .decode .base32 n.1 n.2 0).cnt.toNat := by
  decide +kernel
theorem witness_NothingConsumedAfterPadding :
    (after (.push 0x3D) (act .decode .base32)).runs .decode .base32 ∧
      (after (.push 0x3D) (act .decode .base32)).padseen = true := by decide +kernel
theorem witness_FlushDecodeBase32 :
    (reg .decode .base32 1 1 0).runs .decode .base32 ∧
      ((reg .decode .base32 1 1 0).cnt ≠ 0 ∧ (reg .decode .base32 1 1 0).acc ≠ 0) ∧
      (reg .decode .base32 0 7 0).acc = 0 ∧ (reg .decode .base32 0 0 0).cnt = 0 := by decide +kernel
/-- `z` with and without a pending symbol; the ends of the digit range; the largest sum below 2^32 (`!` after
ACC = 2^32 - 1) and the smallest from it on (a double quote). -/
theorem witness_PushDecodeBase85 :
    (allOf [0x7A#8, 0x21#8, 0x22#8, 0x75#8, 0x76#8, 0x80#8] fun c =>
        skippable (act .decode .base85).cfg .base85 c = false) ∧
      (allOf [0#3, 1#3, 3#3, 4#3] fun n => (reg .decode .base85 4294967295 0 n).runs .decode .base85 ∧
        (reg .decode .base85 4294967295 0 n).gcnt.toNat ≤ 4) ∧
      2 ^ 32 ≤ (reg .decode .base85 4294967295 0 4).acc.toNat + ((0x22 : Byte).toNat - 33) * 85 ^ (4 - 4) ∧
      (reg .decode .base85 4294967295 0 4).acc.toNat + ((0x21 : Byte).toNat - 33) * 85 ^ (4 - 4) < 2 ^ 32 ∧
      (act .decode .base85).cfg.b85Overflow = .wrap := by decide +kernel
theorem witness_FlushDecodeBase85 :
    (allOf [0#3, 1#3, 2#3, 4#3] fun n => (reg .decode .base85 4294967211 0 n).runs .decode .base85 ∧
        (reg .decode .base85 4294967211 0 n).gcnt.toNat ≤ 4) ∧
      2 ^ 32 ≤ (reg .decode .base85 4294967211 0 4).acc.toNat + 85 ^ (5 - 4) ∧
      (reg .decode .base85 4294967210 0 4).acc.toNat + 85 ^ (5 - 4) < 2 ^ 32 := by decide +kernel
/-- The instance in which the two faulting parameters are set, for the clauses that need it. -/
theorem witness_fault_parameters :
    { Config.default with b85Overflow := .fault }.b85Overflow = .fault ∧
      { Config.default with radixRange := .truncate }.radixRange = .truncate := by decide +kernel
theorem witness_PushDecodeBase91 :
    (allOf [0x27#8, 0x41#8, 0x22#8] fun c => skippable (act .decode .base91).cfg .base91 c = false) ∧
      idx91 (act .decode .base91).cfg 0x27 = none ∧ idx91 (act .decode .base91).cfg 0x41 = some 0 ∧
      idx91 (act .decode .base91).cfg 0x22 = some 90 ∧
      ((pending 127 7 90).runs .decode .base91 ∧ (pending 127 7 90).cnt.toNat ≤ 7 ∧
        (pending 127 7 90).acc.toNat < 2 ^ (pending 127 7 90).cnt.toNat ∧ (pending 127 7 90).pend.toNat ≤ 90 ∧
        (pending 127 7 90).pendv = true) ∧
      ((reg .decode .base91 127 7 0).runs .decode .base91 ∧ (reg .decode .base91 127 7 0).pendv = false) := by
  decide +kernel
theorem witness_FlushDecodeBase91 :
    (pending 127 7 90).runs .decode .base91 ∧
      (pending 127 7 90).acc.toNat < 2 ^ (pending 127 7 90).cnt.toNat ∧ (pending 127 7 90).pendv = true ∧
      (reg .decode .base91 127 7 0).pendv = false := by decide +kernel
/-- Both cases of a hexadecimal digit, a symbol of each inverse map, and a legal instance. -/
theorem witness_AlphabetsAreBijections :
    digitValue 0x39 = some 9 ∧ digitValue 0x41 = some 10 ∧ digitValue 0x66 = some 15 ∧
      idx32 0x5A = some 25 ∧ idx32 0x32 = some 26 ∧ value85 0x21 = some 0 ∧ value85 0x75 = some 84 ∧
      Config.default.wf = true ∧ idx91 Config.default 0x41 = some 0 ∧ idx91 Config.default 0x22 = some 90 := by
  decide +kernel
/-- The ends of the four ranges of TAB91 and the two of TAB32 (30_encoding.md R93, R96). -/
theorem test_tables :
    [0, 25, 26, 31].map tab32 = [0x41, 0x5A, 0x32, 0x37] ∧
      [0, 25, 26, 51, 52, 61, 62, 71, 90].map (tab91 Config.default) =
        [0x41, 0x5A, 0x61, 0x7A, 0x30, 0x39, 0x21, 0x2C, 0x22] := by decide +kernel
theorem witness_DigitsOfWord : 4294967295 < 2 ^ 32 := by decide +kernel
/-- Offsets 5, 4, 3 and 1. -/
theorem witness_Base32OffsetMachine :
    (∃ t, exec (.push 0x54) (reg .encode .base32 0 0 0) = .next t ∧ t.cnt.toNat = 3) ∧
      (∃ t, exec (.push 0x54) (reg .encode .base32 0 1 0) = .next t ∧ t.cnt.toNat = 4) ∧
      (∃ t, exec (.push 0x54) (reg .encode .base32 0 2 0) = .next t ∧ t.cnt.toNat = 0) ∧
      (∃ t, exec (.push 0x54) (reg .encode .base32 0 4 0) = .next t ∧ t.cnt.toNat = 2) :=
  ⟨⟨_, rfl, by decide +kernel⟩, ⟨_, rfl, by decide +kernel⟩, ⟨_, rfl, by decide +kernel⟩, ⟨_, rfl, by decide +kernel⟩⟩
/-- The fullest state of the Base91 encoder, at the end of a line of 4095 characters. -/
def fullest : State :=
  onPort { reg .encode .base91 8191 13 0 with llen := 4095, lpos := 4094 } [.command 0x20FF]
theorem witness_StepKeepsInvariant : fullest.Inv ∧ ∃ t, step fullest = .next t ∧ t.lpos = 1 :=
  ⟨by decide +kernel, _, rfl, by decide +kernel⟩
theorem witness_ParameterFaultsNeedTheirParameter :
    ∃ t, step (onPort (reg .decode .base08 63 0 2) [.command 0x2037]) = .next t ∧
      (reg .decode .base08 63 0 2).fcode ≠ .b85Overflow ∧ (reg .decode .base08 63 0 2).fcode ≠ .radixRange ∧
      t.fcode = .radixRange :=
  ⟨_, rfl, by decide +kernel⟩
theorem witness_OutputCounts :
    (pending 127 7 90).Inv ∧ (pending 127 7 90).runs .decode .base91 ∧ fullest.Inv ∧
      fullest.runs .encode .base91 := by decide +kernel
theorem witness_WorkingRegistersUnobservable :
    (idleIn .done 0 9).phase ≠ .active ∧ sameButWorking (idleIn .done 0 9) (idleIn .done 0 3) :=
  ⟨by decide +kernel, rfl⟩
theorem witness_EmptyInvocation : (idleIn .fault 0 0).phase ≠ .active := by decide +kernel
theorem witness_RadixDecodeDropsPartialGroup :
    (Mode.base16, 16, 2) ∈ radixModes ∧ State.reset.phase ≠ .active ∧
      (allOf [0x35#8, 0x34#8, 0x36#8] fun c => symbolTable State.reset.cfg .base16 c = true ∧
        skippable State.reset.cfg .base16 c = false) := by decide +kernel
theorem witness_Base32EncodingShape : State.reset.phase ≠ .active ∧ State.reset.llen = 0 := by decide +kernel
theorem witness_Base85EncodingLength : State.reset.phase ≠ .active ∧ State.reset.llen = 0 := by decide +kernel
theorem witness_RadixRoundTrip :
    (Mode.base02, 2, 8) ∈ radixModes ∧ (idleIn .idle 76 0).phase ≠ .active ∧ (idleIn .idle 76 0).cfg.wf = true ∧
      separatorSkippable (idleIn .idle 76 0) .base02 := by decide +kernel
theorem witness_Base32RoundTrip :
    (idleIn .idle 76 0).phase ≠ .active ∧ (idleIn .idle 76 0).cfg.wf = true ∧
      separatorSkippable (idleIn .idle 76 0) .base32 := by decide +kernel
theorem witness_Base85RoundTrip :
    (idleIn .idle 1 0).phase ≠ .active ∧ (idleIn .idle 1 0).cfg.wf = true ∧
      separatorSkippable (idleIn .idle 1 0) .base85 := by decide +kernel
theorem witness_Base91RoundTrip :
    (idleIn .fault 4095 7).phase ≠ .active ∧ (idleIn .fault 4095 7).cfg.wf = true ∧
      separatorSkippable (idleIn .fault 4095 7) .base91 := by decide +kernel

end Sys2Proof.Tests
end

section
/-! PROOFS. What a command can do, said once: what the rules of PUSH and FLUSH may write
(40_control.md R114, R115), what `exec` answers for each command, and what a step answers. -/

namespace Sys2Proof.Machine

/-! ### What a rule of PUSH or FLUSH may write -/

/-- `t` is `s` with units appended to OUT and any values in the working registers. -/
def DataEffect (s t : State) : Prop :=
  ∃ units : List Byte, sameButWorking { s with out := s.out ++ units } t

namespace DataEffect

theorem refl (s : State) : DataEffect s s := ⟨[], by simp [sameButWorking]⟩

theorem trans {s t u : State} (hst : DataEffect s t) (htu : DataEffect t u) : DataEffect s u := by
  obtain ⟨xs, hst⟩ := hst
  obtain ⟨ys, htu⟩ := htu
  have hout : s.out ++ xs = t.out := congrArg State.out hst
  refine ⟨xs ++ ys, Eq.trans ?_ htu⟩
  simp_all [sameButWorking, ← List.append_assoc]

/-- The working registers may be written after any data effect. -/
theorem working {s t u : State} (hst : DataEffect s t) (htu : sameButWorking t u) : DataEffect s u := by
  obtain ⟨xs, hst⟩ := hst
  exact ⟨xs, hst.trans htu⟩

theorem of_working {s t : State} (h : sameButWorking s t) : DataEffect s t := (refl s).working h

theorem cfg_eq {s t : State} (h : DataEffect s t) : t.cfg = s.cfg := by
  obtain ⟨units, h⟩ := h
  exact (congrArg State.cfg h).symm

end DataEffect

theorem emitText_dataEffect (s : State) (c : Byte) : DataEffect s (s.emitText c) := by
  obtain ⟨units, p, h⟩ := emitText_eq_update s c
  exact ⟨units, by rw [h]; rfl⟩

theorem emitTexts_dataEffect (s : State) (cs : List Byte) : DataEffect s (s.emitTexts cs) := by
  obtain ⟨units, p, h⟩ := emitTexts_eq_update s cs
  exact ⟨units, by rw [h]; rfl⟩

theorem emitByte_dataEffect (s : State) (b : Byte) : DataEffect s (s.emitByte b) := ⟨[b], rfl⟩

theorem emitBytes_dataEffect (s : State) (bs : List Byte) : DataEffect s (s.emitBytes bs) :=
  ⟨bs, by rw [emitBytes_eq]; rfl⟩

/-! ### The encode rules -/

theorem radixEncode_dataEffect (r w : Nat) (b : Byte) (s : State) : DataEffect s (radixEncode r w b s) :=
  emitTexts_dataEffect _ _

theorem drainSymbols32_dataEffect (fuel : Nat) (s : State) : DataEffect s (drainSymbols32 fuel s) := by
  induction fuel generalizing s with
  | zero => exact .refl s
  | succ fuel ih =>
    unfold drainSymbols32
    split
    · refine .trans ?_ (ih _)
      exact (emitText_dataEffect s _).working rfl
    · exact .refl s

theorem pushEncodeBase32_dataEffect (b : Byte) (s : State) : DataEffect s (pushEncodeBase32 b s) := by
  unfold pushEncodeBase32
  extract_lets s1 s2
  have hloaded : DataEffect s s1 := .of_working rfl
  have hdrained : DataEffect s1 s2 := drainSymbols32_dataEffect _ s1
  exact (hloaded.trans hdrained).working rfl

theorem finalSymbol32_dataEffect (s : State) : DataEffect s (finalSymbol32 s) := by
  unfold finalSymbol32
  split
  · exact (emitText_dataEffect s _).working rfl
  · exact .refl s

theorem padToEight_dataEffect (fuel : Nat) (s : State) : DataEffect s (padToEight fuel s) := by
  induction fuel generalizing s with
  | zero => exact .refl s
  | succ fuel ih =>
    unfold padToEight
    split
    · exact .refl s
    · refine .trans ?_ (ih _)
      exact (emitText_dataEffect s _).working rfl

theorem flushEncodeBase32_dataEffect (s : State) : DataEffect s (flushEncodeBase32 s) :=
  (finalSymbol32_dataEffect s).trans (padToEight_dataEffect 8 _)

theorem pushEncodeBase85_dataEffect (b : Byte) (s : State) : DataEffect s (pushEncodeBase85 b s) := by
  unfold pushEncodeBase85
  extract_lets s1 t
  have hloaded : DataEffect s s1 := .of_working rfl
  split
  · have hgroup : DataEffect s1 t := by
      unfold t
      split
      · exact emitText_dataEffect s1 _
      · exact emitTexts_dataEffect s1 _
    exact (hloaded.trans hgroup).working rfl
  · exact hloaded

theorem flushEncodeBase85_dataEffect (s : State) : DataEffect s (flushEncodeBase85 s) := by
  unfold flushEncodeBase85
  split
  · exact (emitTexts_dataEffect s _).working rfl
  · exact .refl s

theorem pushEncodeBase91_dataEffect (b : Byte) (s : State) : DataEffect s (pushEncodeBase91 b s) := by
  unfold pushEncodeBase91
  extract_lets s1 n ch s2
  split
  · have hloaded : DataEffect s s2 := .of_working rfl
    exact hloaded.trans (emitTexts_dataEffect s2 _)
  · exact .of_working rfl

theorem flushEncodeBase91_dataEffect (s : State) : DataEffect s (flushEncodeBase91 s) := by
  unfold flushEncodeBase91
  dsimp only
  split
  · split
    · exact ((emitText_dataEffect s _).trans (emitText_dataEffect _ _)).working rfl
    · exact (emitText_dataEffect s _).working rfl
  · exact .refl s

theorem pushEncode_dataEffect (b : Byte) (s : State) : DataEffect s (pushEncode b s) := by
  unfold pushEncode
  cases s.mode with
  | base02 | base08 | base10 | base16 => exact radixEncode_dataEffect _ _ b s
  | base32 => exact pushEncodeBase32_dataEffect b s
  | base85 => exact pushEncodeBase85_dataEffect b s
  | base91 => exact pushEncodeBase91_dataEffect b s

theorem flushEncode_dataEffect (s : State) : DataEffect s (flushEncode s) := by
  unfold flushEncode
  cases s.mode with
  | base02 | base08 | base10 | base16 => exact .refl s
  | base32 => exact flushEncodeBase32_dataEffect s
  | base85 => exact flushEncodeBase85_dataEffect s
  | base91 => exact flushEncodeBase91_dataEffect s

/-! ### The decode rules, which may raise a DecodeFault -/

/-- A fault the block may raise with the parameters `cfg`: it has a code, and the two codes of a parameter only
where the parameter asks for the fault (60_exceptions.md R220, R226, R227). -/
def RaisedFault.LegalUnder (f : RaisedFault) (cfg : Config) : Prop :=
  f.code ≠ .none ∧ (f.code = .b85Overflow → cfg.b85Overflow = .fault) ∧
    (f.code = .radixRange → cfg.radixRange = .fault)

/-- What a decode rule may answer in `s`: a data effect, or a legal fault. -/
def DecodeResult (s : State) : Except RaisedFault State → Prop
  | .ok t => DataEffect s t
  | .error f => f.LegalUnder s.cfg

theorem invalidSymbol_legal (c : Byte) (cfg : Config) : RaisedFault.LegalUnder ⟨.invalidSymbol, c⟩ cfg := by
  simp [RaisedFault.LegalUnder]

theorem radixDecode_result (r w : Nat) (c : Byte) (s : State) : DecodeResult s (radixDecode r w c s) := by
  unfold radixDecode
  cases digitValue c with
  | none => exact invalidSymbol_legal c _
  | some d =>
    dsimp only
    split
    · exact invalidSymbol_legal c _
    · split
      · split
        · next hrange => simp [DecodeResult, RaisedFault.LegalUnder, hrange.2]
        · exact (emitByte_dataEffect s _).working rfl
      · exact DataEffect.of_working rfl

theorem flushDecodeRadix_result (s : State) : DecodeResult s (flushDecodeRadix s) :=
  DataEffect.of_working rfl

theorem pushDecodeBase32_result (c : Byte) (s : State) : DecodeResult s (pushDecodeBase32 c s) := by
  unfold pushDecodeBase32
  split
  · exact DataEffect.of_working rfl
  · split
    · exact invalidSymbol_legal c _
    · next d _ =>
      extract_lets s1 emitted s2
      have hloaded : DataEffect s s1 := .of_working rfl
      have hbyte : DataEffect s1 s2 := by
        unfold s2
        split
        · exact (emitByte_dataEffect s1 _).working rfl
        · exact .refl s1
      exact (hloaded.trans hbyte).working rfl

theorem flushDecodeBase32_result (s : State) : DecodeResult s (flushDecodeBase32 s) := by
  unfold flushDecodeBase32
  split
  · simp [DecodeResult, RaisedFault.LegalUnder]
  · exact DataEffect.of_working rfl

theorem assignAcc85_result (v : Nat) (c : Byte) (s : State) : DecodeResult s (assignAcc85 v c s) := by
  obtain ⟨-, hfault, heq⟩ | ⟨-, heq⟩ := assignAcc85_cases v c s
  · simp [heq, DecodeResult, RaisedFault.LegalUnder, hfault]
  · rw [heq]
    exact DataEffect.of_working rfl

theorem pushDecodeBase85_result (c : Byte) (s : State) : DecodeResult s (pushDecodeBase85 c s) := by
  unfold pushDecodeBase85
  split
  · split
    · exact emitBytes_dataEffect s _
    · simp [DecodeResult, RaisedFault.LegalUnder]
  · split
    · exact invalidSymbol_legal c _
    · next d _ =>
      have hassign := assignAcc85_result (s.acc.toNat + d * pow85 s.gcnt.toNat) c s
      split
      · next f hr => rwa [hr] at hassign
      · next t hr =>
        rw [hr] at hassign
        extract_lets t1
        have hcounted : DataEffect s t1 := hassign.working rfl
        split
        · exact hcounted.trans ((emitBytes_dataEffect t1 _).working rfl)
        · exact hcounted

theorem flushDecodeBase85_result (s : State) : DecodeResult s (flushDecodeBase85 s) := by
  unfold flushDecodeBase85
  split
  · simp [DecodeResult, RaisedFault.LegalUnder]
  · split
    · have hassign := assignAcc85_result (s.acc.toNat + pow85 (s.gcnt.toNat - 1)) 0 s
      split
      · next f hr => rwa [hr] at hassign
      · next t hr =>
        rw [hr] at hassign
        exact hassign.trans ((emitBytes_dataEffect t _).working rfl)
    · exact DataEffect.refl s

theorem drainBytes91_dataEffect (fuel : Nat) (s : State) : DataEffect s (drainBytes91 fuel s) := by
  induction fuel generalizing s with
  | zero => exact .refl s
  | succ fuel ih =>
    unfold drainBytes91
    split
    · refine .trans ?_ (ih _)
      exact (emitByte_dataEffect s _).working rfl
    · exact .refl s

theorem pushDecodeBase91_result (c : Byte) (s : State) : DecodeResult s (pushDecodeBase91 c s) := by
  unfold pushDecodeBase91
  cases idx91 s.cfg c with
  | none => exact invalidSymbol_legal c _
  | some d =>
    dsimp only
    split
    · refine DataEffect.trans ?_ (drainBytes91_dataEffect _ _)
      exact .of_working rfl
    · exact DataEffect.of_working rfl

theorem flushDecodeBase91_result (s : State) : DecodeResult s (flushDecodeBase91 s) := by
  unfold flushDecodeBase91
  dsimp only
  split
  · exact (emitByte_dataEffect s _).working rfl
  · exact DataEffect.of_working rfl

theorem pushDecode_result (c : Byte) (s : State) : DecodeResult s (pushDecode c s) := by
  unfold pushDecode
  cases s.mode with
  | base02 | base08 | base10 | base16 => exact radixDecode_result _ _ c s
  | base32 => exact pushDecodeBase32_result c s
  | base85 => exact pushDecodeBase85_result c s
  | base91 => exact pushDecodeBase91_result c s

theorem flushDecode_result (s : State) : DecodeResult s (flushDecode s) := by
  unfold flushDecode
  cases s.mode with
  | base02 | base08 | base10 | base16 => exact flushDecodeRadix_result s
  | base32 => exact flushDecodeBase32_result s
  | base85 => exact flushDecodeBase85_result s
  | base91 => exact flushDecodeBase91_result s

/-! ### What a command does -/

/-- Everything the command `i` can do in the state `s`, with the condition under which it does it
(40_control.md R111 to R116, 60_exceptions.md R224, R230). -/
inductive CommandEffect (s : State) : Instr → State → Prop
  | badSequence {i : Instr} (hno : allowedIn i s.phase = false) :
      CommandEffect s i (raiseCmdError .badSequence s)
  | reservedMode {i : Instr} (hrow : i ∈ reservedRows) (hphase : s.phase ≠ .active) :
      CommandEffect s i (raiseCmdError .reservedMode s)
  | opened {i : Instr} {d : Dir} {m : Mode} (hrow : (i, d, m) ∈ openRows) (hphase : s.phase ≠ .active) :
      CommandEffect s i (startInvocation d m s)
  | lineLength (len : BitVec 12) (hphase : s.phase ≠ .active) :
      CommandEffect s (.setll len) { s with llen := len }
  | firstSeparator (b : Byte) (hphase : s.phase ≠ .active) :
      CommandEffect s (.setsep 0 b) { s with sep0 := b, seplen := 1 }
  | secondSeparator (b : Byte) (hphase : s.phase ≠ .active) :
      CommandEffect s (.setsep 1 b) { s with sep1 := b, seplen := 2 }
  | pushed {b : Byte} {t : State} (hphase : s.phase = .active) (hdata : DataEffect s t) :
      CommandEffect s (.push b) t
  | flushed {t : State} (hphase : s.phase = .active) (hdata : DataEffect s t) :
      CommandEffect s .flush { t with phase := .done }
  | faulted {i : Instr} {f : RaisedFault} (hphase : s.phase = .active) (hdir : s.dir = .decode)
      (hi : (∃ b, i = .push b) ∨ i = .flush) (hlegal : f.LegalUnder s.cfg) :
      CommandEffect s i (raiseDecodeFault f s)

/-- PUSH and FLUSH are allowed in no PHASE but ACTIVE (40_control.md R116). -/
theorem allowedIn_push_of_not_active (b : Byte) {p : Phase} (h : p ≠ .active) :
    allowedIn (.push b) p = false := by
  cases p with
  | active => exact absurd rfl h
  | idle | done | fault => rfl

theorem allowedIn_flush_of_not_active {p : Phase} (h : p ≠ .active) : allowedIn .flush p = false := by
  cases p with
  | active => exact absurd rfl h
  | idle | done | fault => rfl

theorem insideActive_effect {i : Instr} {s : State} {run : State → State}
    (hno : s.phase ≠ .active → allowedIn i s.phase = false)
    (hrun : s.phase = .active → CommandEffect s i (run s)) : CommandEffect s i (insideActive s run) := by
  by_cases hphase : s.phase = .active
  · rw [insideActive_of_active _ _ hphase]
    exact hrun hphase
  · rw [insideActive_of_not_active _ _ hphase]
    exact .badSequence (hno hphase)

theorem outsideActive_effect {i : Instr} {s : State} {run : State → State}
    (hno : allowedIn i .active = false)
    (hrun : s.phase ≠ .active → CommandEffect s i (run s)) : CommandEffect s i (outsideActive s run) := by
  by_cases hphase : s.phase = .active
  · rw [outsideActive_of_active _ _ hphase]
    exact .badSequence (hphase ▸ hno)
  · rw [outsideActive_of_not_active _ _ hphase]
    exact hrun hphase

theorem openCommand_effect_of_mode {i : Instr} {d : Dir} {code : BitVec 3} {m : Mode} (s : State)
    (hcode : Mode.ofCode code = some m) (hrow : (i, d, m) ∈ openRows) (hno : allowedIn i .active = false) :
    CommandEffect s i (openCommand d code s) := by
  refine outsideActive_effect hno fun hphase => ?_
  rw [hcode]
  exact .opened hrow hphase

theorem openCommand_effect_of_reserved {i : Instr} {d : Dir} {code : BitVec 3} (s : State)
    (hcode : Mode.ofCode code = none) (hrow : i ∈ reservedRows) (hno : allowedIn i .active = false) :
    CommandEffect s i (openCommand d code s) := by
  refine outsideActive_effect hno fun hphase => ?_
  rw [hcode]
  exact .reservedMode hrow hphase

theorem execSetll_effect (len : BitVec 12) (s : State) :
    ∃ t, execSetll len s = .next t ∧ CommandEffect s (.setll len) t :=
  ⟨_, rfl, outsideActive_effect rfl (.lineLength len)⟩

theorem execSetsep_effect (sel : BitVec 1) (b : Byte) (s : State) :
    ∃ t, execSetsep sel b s = .next t ∧ CommandEffect s (.setsep sel b) t := by
  refine ⟨_, rfl, outsideActive_effect rfl fun hphase => ?_⟩
  obtain rfl | rfl := BitVec.eq_zero_or_eq_one sel
  · exact .firstSeparator b hphase
  · exact .secondSeparator b hphase

/-- A decode PUSH: dropped, or what the mode's rule answers (40_control.md R114). -/
theorem pushFiltered_effect (c : Byte) (s : State) (hphase : s.phase = .active) (hdir : s.dir = .decode) :
    CommandEffect s (.push c) (pushFiltered c s) := by
  unfold pushFiltered
  split
  · exact .pushed hphase (.refl s)
  · split
    · exact .pushed hphase (.refl s)
    · have hresult := pushDecode_result c s
      obtain ⟨t, hr, ht⟩ | ⟨f, hr, hf⟩ := settle_cases s (pushDecode c s)
      · rw [hr] at hresult
        exact ht ▸ .pushed hphase hresult
      · rw [hr] at hresult
        exact hf ▸ .faulted hphase hdir (.inl ⟨c, rfl⟩) hresult

theorem execPush_effect (b : Byte) (s : State) :
    ∃ t, execPush b s = .next t ∧ CommandEffect s (.push b) t := by
  refine ⟨_, rfl, insideActive_effect (allowedIn_push_of_not_active b) fun hphase => ?_⟩
  cases hdir : s.dir with
  | encode => exact .pushed hphase (pushEncode_dataEffect b s)
  | decode => exact pushFiltered_effect b s hphase hdir

theorem settle_flushRule_effect (s : State) (hphase : s.phase = .active) :
    CommandEffect s .flush (settle s (flushRule s)) := by
  unfold flushRule
  cases hdir : s.dir with
  | encode => exact .flushed hphase (flushEncode_dataEffect s)
  | decode =>
    have hresult := flushDecode_result s
    dsimp only
    cases hr : flushDecode s with
    | ok t =>
      rw [hr] at hresult
      exact .flushed hphase hresult
    | error f =>
      rw [hr] at hresult
      exact .faulted hphase hdir (.inr rfl) hresult

theorem execFlush_effect (s : State) : ∃ t, execFlush s = .next t ∧ CommandEffect s .flush t :=
  ⟨_, rfl, insideActive_effect allowedIn_flush_of_not_active (settle_flushRule_effect s)⟩

theorem exec_effect (i : Instr) (s : State) : ∃ t, exec i s = .next t ∧ CommandEffect s i t := by
  cases i with
  | push b => exact execPush_effect b s
  | flush => exact execFlush_effect s
  | setll len => exact execSetll_effect len s
  | setsep sel b => exact execSetsep_effect sel b s
  | openERsvd5 | openDRsvd5 => exact ⟨_, rfl, openCommand_effect_of_reserved s rfl (by decide) rfl⟩
  | _ => exact ⟨_, rfl, openCommand_effect_of_mode s rfl (by decide) rfl⟩

/-- What `exec` answers is an effect of the command. -/
theorem commandEffect_of_exec {i : Instr} {s t : State} (h : exec i s = .next t) : CommandEffect s i t := by
  obtain ⟨u, hu, heffect⟩ := exec_effect i s
  cases hu.symm.trans h
  exact heffect

/-! ### What a step does -/

/-- Everything a step can do: wait, reset, refuse a word that is no command, or run a command
(40_control.md R110, 70_reset_and_hazards.md R250, R253). -/
inductive StepEffect (s : State) : State → Prop
  | waited (hport : s.port = []) : StepEffect s s
  | wasReset {rest : List PortEvent} (hport : s.port = .reset :: rest) :
      StepEffect s (applyReset { s with port := rest })
  | illegal {w : CommandWord} {rest : List PortEvent} (hport : s.port = .command w :: rest)
      (hdecode : decode w = .error .illegalCommand) : StepEffect s (execIllegal { s with port := rest })
  | ran {w : CommandWord} {rest : List PortEvent} {i : Instr} {t : State} (hport : s.port = .command w :: rest)
      (hdecode : decode w = .ok i) (heffect : CommandEffect { s with port := rest } i t) : StepEffect s t

theorem stepEffect_of_step {s t : State} (h : step s = .next t) : StepEffect s t := by
  unfold step State.nextEvent at h
  cases hport : s.port with
  | nil =>
    rw [hport] at h
    cases h
    exact .waited hport
  | cons e rest =>
    rw [hport] at h
    cases e with
    | reset =>
      cases h
      exact .wasReset hport
    | command w =>
      cases hdecode : decode w with
      | error e =>
        simp only [hdecode] at h
        cases h
        exact .illegal hport hdecode
      | ok i =>
        simp only [hdecode] at h
        exact .ran hport hdecode (commandEffect_of_exec h)

/-! ### The parameters -/

/-- No command writes the parameters. -/
theorem CommandEffect.cfg_eq {s t : State} {i : Instr} (h : CommandEffect s i t) : t.cfg = s.cfg := by
  cases h with
  | pushed _ hdata | flushed _ hdata => exact hdata.cfg_eq
  | badSequence | reservedMode => exact raiseCmdError_cfg _ s
  | opened => exact startInvocation_cfg _ _ s
  | faulted => exact raiseDecodeFault_cfg _ s
  | lineLength | firstSeparator | secondSeparator => rfl

/-- Settles O20: of all a step can do, nothing writes the parameters (00_scope.md R5 to R9, assumption log 3). -/
theorem parametersNeverChange : Obligations.ParametersNeverChange := by
  intro s t h
  cases stepEffect_of_step h with
  | waited => rfl
  | wasReset => exact applyReset_cfg _
  | illegal => exact raiseCmdError_cfg _ _
  | ran _ _ heffect => exact heffect.cfg_eq

end Sys2Proof.Machine
end

section
/-! PROOFS. The two views STATUS and CONFIG field by field, and the reset values (10_state.md R30, R40, R41). -/

namespace Sys2Proof.Machine

/-- Settles O8: the reset column of the register table and the two views, by evaluation. -/
theorem resetValues : Obligations.ResetValues := by
  unfold Obligations.ResetValues
  exact ⟨rfl, rfl, rfl, rfl, rfl, rfl, rfl, rfl, rfl⟩

/-- STATUS is the concatenation of its fields, so each field is found at the sum of the widths below it. -/
theorem statusWord_fields (s : State) :
    s.statusWord.extractLsb' 0 2 = s.phase.code ∧
    s.statusWord.extractLsb' 2 1 = BitVec.ofBool s.cmderr ∧
    s.statusWord.extractLsb' 3 2 = s.cecode.code ∧
    s.statusWord.extractLsb' 5 1 = BitVec.ofBool s.fsticky ∧
    s.statusWord.extractLsb' 6 2 = 0 ∧
    s.statusWord.extractLsb' 8 3 = s.fcode.code ∧
    s.statusWord.extractLsb' 11 5 = 0 ∧
    s.statusWord.extractLsb' 16 8 = s.fchar ∧
    s.statusWord.extractLsb' 24 3 = s.mode.code ∧
    s.statusWord.extractLsb' 27 1 = s.dir.bit ∧
    s.statusWord.extractLsb' 28 4 = 0 := by
  unfold State.statusWord
  simp (disch := decide) only [BitVec.extractLsb'_append_eq_of_le, BitVec.extractLsb'_append_eq_right,
    BitVec.extractLsb'_eq_self, Nat.reduceSub, BitVec.ofNat_eq_ofNat, and_self]

theorem configWord_fields (s : State) :
    s.configWord.extractLsb' 0 12 = s.llen ∧
    s.configWord.extractLsb' 12 2 = s.seplen ∧
    s.configWord.extractLsb' 14 2 = 0 ∧
    s.configWord.extractLsb' 16 8 = s.sep0 ∧
    s.configWord.extractLsb' 24 8 = s.sep1 := by
  unfold State.configWord
  simp (disch := decide) only [BitVec.extractLsb'_append_eq_of_le, BitVec.extractLsb'_append_eq_right,
    BitVec.extractLsb'_eq_self, Nat.reduceSub, BitVec.ofNat_eq_ofNat, and_self]

/-- Settles O10: the fields of the two views, and the tables of codes (R29, R31, R220, R231) by evaluation. -/
theorem statusAndConfigFields : Obligations.StatusAndConfigFields := by
  intro s
  obtain ⟨phase, cmderr, cecode, fsticky, zero6, fcode, zero11, fchar, mode, dir, zero28⟩ := statusWord_fields s
  obtain ⟨llen, seplen, zero14, sep0, sep1⟩ := configWord_fields s
  exact ⟨phase, cmderr, cecode, fsticky, zero6, fcode, zero11, fchar, mode, dir, zero28,
    llen, seplen, zero14, sep0, sep1, rfl, rfl, rfl, rfl, rfl⟩

end Sys2Proof.Machine
end

section
/-! PROOFS. Outside ACTIVE the working registers are dead: no command reads them and OPEN and RESET overwrite them
(10_state.md R20, R34; 40_control.md R111). -/

namespace Sys2Proof.Machine

/-- A state that differs in the working registers only is an update of those registers. -/
theorem eq_update_of_sameButWorking {s t : State} (h : sameButWorking s t) :
    t = { s with
      acc := t.acc, cnt := t.cnt, gcnt := t.gcnt, lpos := t.lpos
      pend := t.pend, pendv := t.pendv, padseen := t.padseen } :=
  congrArg (fun u : State => { u with
    acc := t.acc, cnt := t.cnt, gcnt := t.gcnt, lpos := t.lpos
    pend := t.pend, pendv := t.pendv, padseen := t.padseen }) (Eq.symm h)

theorem sameButWorking.observe_eq {s t : State} (h : sameButWorking s t) : s.observe = t.observe := by
  rw [eq_update_of_sameButWorking h]
  rfl

theorem sameButWorking.phase_eq {s t : State} (h : sameButWorking s t) : s.phase = t.phase :=
  (congrArg State.phase h :)

theorem sameButWorking.port_eq {s t : State} (h : sameButWorking s t) : s.port = t.port :=
  (congrArg State.port h :)

/-- Taking a transaction off the port is not a difference. -/
theorem sameButWorking.withPort {s t : State} (h : sameButWorking s t) (rest : List PortEvent) :
    sameButWorking { s with port := rest } { t with port := rest } := by
  rw [eq_update_of_sameButWorking h]
  rfl

theorem sameButWorking.raiseCmdError {s t : State} (h : sameButWorking s t) (code : CmdErrorCode) :
    sameButWorking (raiseCmdError code s) (raiseCmdError code t) := by
  rw [eq_update_of_sameButWorking h]
  rfl

/-- An accepted OPEN writes all the working registers. -/
theorem sameButWorking.startInvocation_eq {s t : State} (h : sameButWorking s t) (d : Dir) (m : Mode) :
    startInvocation d m s = startInvocation d m t := by
  rw [eq_update_of_sameButWorking h]
  rfl

/-- RESET writes all the working registers. -/
theorem sameButWorking.applyReset_eq {s t : State} (h : sameButWorking s t) : applyReset s = applyReset t := by
  rw [eq_update_of_sameButWorking h]
  rfl

/-- Two states no host can tell apart: the same state, or states outside ACTIVE that agree on everything but the
working registers. -/
def Indistinguishable (s t : State) : Prop := s = t ∨ (s.phase ≠ .active ∧ sameButWorking s t)

theorem Indistinguishable.observe_eq {s t : State} (h : Indistinguishable s t) : s.observe = t.observe := by
  obtain rfl | ⟨-, hsame⟩ := h
  · rfl
  · exact hsame.observe_eq

theorem insideActive_indistinguishable {s t : State} (run : State → State) (hphase : s.phase ≠ .active)
    (hsame : sameButWorking s t) : Indistinguishable (insideActive s run) (insideActive t run) := by
  rw [insideActive_of_not_active s run hphase, insideActive_of_not_active t run (hsame.phase_eq ▸ hphase)]
  exact .inr ⟨hphase, hsame.raiseCmdError _⟩

theorem outsideActive_indistinguishable {s t : State} {run : State → State} (hphase : s.phase ≠ .active)
    (hsame : sameButWorking s t) (hrun : Indistinguishable (run s) (run t)) :
    Indistinguishable (outsideActive s run) (outsideActive t run) := by
  rwa [outsideActive_of_not_active s run hphase, outsideActive_of_not_active t run (hsame.phase_eq ▸ hphase)]

theorem openCommand_indistinguishable {s t : State} (d : Dir) (code : BitVec 3) (hphase : s.phase ≠ .active)
    (hsame : sameButWorking s t) : Indistinguishable (openCommand d code s) (openCommand d code t) := by
  refine outsideActive_indistinguishable hphase hsame ?_
  cases Mode.ofCode code with
  | none => exact .inr ⟨hphase, hsame.raiseCmdError _⟩
  | some m => exact .inl (hsame.startInvocation_eq d m)

theorem setll_indistinguishable {s t : State} (len : BitVec 12) (hphase : s.phase ≠ .active)
    (hsame : sameButWorking s t) : Indistinguishable { s with llen := len } { t with llen := len } := by
  rw [eq_update_of_sameButWorking hsame]
  exact .inr ⟨hphase, rfl⟩

theorem setsep_indistinguishable {s t : State} (sel : BitVec 1) (b : Byte) (hphase : s.phase ≠ .active)
    (hsame : sameButWorking s t) :
    Indistinguishable
      (if sel = 0 then { s with sep0 := b, seplen := 1 } else { s with sep1 := b, seplen := 2 })
      (if sel = 0 then { t with sep0 := b, seplen := 1 } else { t with sep1 := b, seplen := 2 }) := by
  rw [eq_update_of_sameButWorking hsame]
  split
  · exact .inr ⟨hphase, rfl⟩
  · exact .inr ⟨hphase, rfl⟩

/-- Two outcomes that are next states no host can tell apart. -/
def IndistinguishableNext (o p : Host.Outcome State Fault Refusal) : Prop :=
  ∃ s t, o = .next s ∧ p = .next t ∧ Indistinguishable s t

theorem IndistinguishableNext.intro {s t : State} (h : Indistinguishable s t) :
    IndistinguishableNext (.next s) (.next t) := ⟨s, t, rfl, rfl, h⟩

/-- Outside ACTIVE no command reads a working register (40_control.md R116). -/
theorem exec_indistinguishable (i : Instr) {s t : State} (hphase : s.phase ≠ .active) (hsame : sameButWorking s t) :
    IndistinguishableNext (exec i s) (exec i t) := by
  cases i with
  | push | flush => exact .intro (insideActive_indistinguishable _ hphase hsame)
  | setll len =>
    exact .intro (outsideActive_indistinguishable hphase hsame (setll_indistinguishable len hphase hsame))
  | setsep sel b =>
    exact .intro (outsideActive_indistinguishable hphase hsame (setsep_indistinguishable sel b hphase hsame))
  | _ => exact .intro (openCommand_indistinguishable _ _ hphase hsame)

/-- Every step answers a next state (60_exceptions.md R235). -/
theorem step_next (s : State) : ∃ t, step s = .next t := by
  unfold step
  split
  · exact ⟨_, rfl⟩
  · exact ⟨_, rfl⟩
  · split
    · exact ⟨_, rfl⟩
    · next i _ =>
      obtain ⟨t, h, -⟩ := exec_effect i _
      exact ⟨t, h⟩

/-- One step of the simulation. -/
theorem step_indistinguishable {s t : State} (h : Indistinguishable s t) :
    IndistinguishableNext (step s) (step t) := by
  obtain rfl | ⟨hphase, hsame⟩ := h
  · obtain ⟨u, hu⟩ := step_next s
    exact ⟨u, u, hu, hu, .inl rfl⟩
  · have hport := hsame.port_eq
    unfold step State.nextEvent
    rw [← hport]
    cases s.port with
    | nil => exact .intro (.inr ⟨hphase, hsame⟩)
    | cons e rest =>
      have hrest := hsame.withPort rest
      cases e with
      | reset => exact .intro (.inl hrest.applyReset_eq)
      | command w =>
        dsimp only
        cases decode w with
        | error e => exact .intro (.inr ⟨hphase, hrest.raiseCmdError _⟩)
        | ok i => exact exec_indistinguishable i hphase hrest

/-- The simulation over a whole run. -/
theorem runFor_indistinguishable (n : Nat) {s t : State} (h : Indistinguishable s t) :
    IndistinguishableNext (runFor n s) (runFor n t) := by
  induction n generalizing s t with
  | zero => exact .intro h
  | succ n ih =>
    obtain ⟨s', t', hs, ht, h'⟩ := step_indistinguishable h
    rw [runFor_succ_of_next n s s' hs, runFor_succ_of_next n t t' ht]
    exact ih h'

/-- Settles O51: the simulation keeps the two runs indistinguishable, and such states read alike. -/
theorem workingRegistersUnobservable : Obligations.WorkingRegistersUnobservable := by
  intro n s t hphase hsame
  obtain ⟨s', t', hs, ht, h⟩ := runFor_indistinguishable n (.inr ⟨hphase, hsame⟩)
  exact ⟨s', t', hs, ht, h.observe_eq⟩

end Sys2Proof.Machine
end

section
/-! PROOFS. The invariant between commands (10_state.md R33): the working registers of every mode stay in the row
of the table, LPOS stays inside the line, a FLUSH leaves no tail, and the two error records stay consistent. -/

namespace Sys2Proof.Machine

/-! ### The rows of the table, and their place in `State.workingRow` -/

/-- The row of the four radix modes in encode direction. -/
def State.RadixEncodeRow (s : State) : Prop := s.acc = 0 ∧ s.cnt = 0 ∧ s.gcnt = 0 ∧ s.noPending

/-- The row of the Base32 encoder. -/
def State.Base32EncodeRow (s : State) : Prop :=
  s.acc.toNat < 2 ^ s.cnt.toNat ∧
    (s.cnt.toNat, s.gcnt.toNat) ∈ [(0, 0), (3, 1), (1, 3), (4, 4), (2, 6)] ∧ s.noPending

/-- The row of the Base32 decoder. -/
def State.Base32DecodeRow (s : State) : Prop :=
  s.acc.toNat < 2 ^ s.cnt.toNat ∧ s.cnt.toNat ≤ 7 ∧ s.gcnt = 0 ∧ s.pend = 0 ∧ s.pendv = false

/-- The row of the Base85 encoder. -/
def State.Base85EncodeRow (s : State) : Prop :=
  s.acc.toNat < 2 ^ (8 * s.gcnt.toNat) ∧ s.cnt = 0 ∧ s.gcnt.toNat ≤ 3 ∧ s.noPending

/-- The row of the Base85 decoder. -/
def State.Base85DecodeRow (s : State) : Prop :=
  (s.gcnt = 0 → s.acc = 0) ∧ s.cnt = 0 ∧ s.gcnt.toNat ≤ 4 ∧ s.noPending

/-- The row of the Base91 encoder. -/
def State.Base91EncodeRow (s : State) : Prop :=
  s.acc.toNat < 2 ^ s.cnt.toNat ∧ s.cnt.toNat ≤ 13 ∧ s.gcnt = 0 ∧ s.noPending

/-- The row of the Base91 decoder. -/
def State.Base91DecodeRow (s : State) : Prop :=
  s.acc.toNat < 2 ^ s.cnt.toNat ∧ s.cnt.toNat ≤ 7 ∧ s.gcnt = 0 ∧
    s.pend.toNat ≤ 90 ∧ (s.pendv = false → s.pend = 0) ∧ s.padseen = false

/-- The row of R33's table for a direction and a mode. -/
def State.Row (s : State) : Dir → Mode → Prop
  | .encode, .base02 | .encode, .base08 | .encode, .base10 | .encode, .base16 => s.RadixEncodeRow
  | .decode, .base02 => s.radixRow 2 8
  | .decode, .base08 => s.radixRow 8 3
  | .decode, .base10 => s.radixRow 10 3
  | .decode, .base16 => s.radixRow 16 2
  | .encode, .base32 => s.Base32EncodeRow
  | .decode, .base32 => s.Base32DecodeRow
  | .encode, .base85 => s.Base85EncodeRow
  | .decode, .base85 => s.Base85DecodeRow
  | .encode, .base91 => s.Base91EncodeRow
  | .decode, .base91 => s.Base91DecodeRow

theorem workingRow_iff (s : State) : s.workingRow = true ↔ s.Row s.dir s.mode := by
  unfold State.workingRow
  cases s.dir with
  | encode => cases s.mode <;> exact decide_eq_true_iff
  | decode => cases s.mode <;> exact decide_eq_true_iff

/-- LPOS is a position of the current line. -/
def State.LposInLine (s : State) : Prop := s.lpos.toNat < max s.llen.toNat 1

/-- What holds between the commands of an invocation. -/
def State.MidInvocation (s : State) (d : Dir) (m : Mode) : Prop := s.Row d m ∧ s.LposInLine

theorem activeInv_iff (s : State) :
    s.activeInv ↔ (s.phase = .active → s.MidInvocation s.dir s.mode) := by
  unfold State.activeInv State.MidInvocation
  rw [workingRow_iff]
  rfl

/-- No tail is left in the working registers. -/
def State.NoTail (s : State) : Prop := s.acc = 0 ∧ s.cnt = 0 ∧ s.gcnt = 0 ∧ s.pend = 0 ∧ s.pendv = false

/-! ### The framer keeps LPOS inside the line (40_control.md R120) -/

theorem emitText_lposInLine {s : State} (c : Byte) (h : s.LposInLine) : (s.emitText c).LposInLine := by
  unfold State.LposInLine at *
  unfold State.emitText
  split
  · exact h
  · split
    · show (0 : Nat) < _
      omega
    · next hlast =>
      show (s.lpos + 1).toNat < max s.llen.toNat 1
      bv_omega

theorem emitTexts_lposInLine {s : State} (cs : List Byte) (h : s.LposInLine) : (s.emitTexts cs).LposInLine := by
  induction cs generalizing s with
  | nil => exact h
  | cons c cs ih => exact ih (emitText_lposInLine c h)

/-! ### Values that fit in a number of bits -/

theorem toNat_ofNat_lt {w v n : Nat} (h : v < n) : (BitVec.ofNat w v).toNat < n :=
  Nat.lt_of_le_of_lt (by simpa using Nat.mod_le v (2 ^ w)) h

/-- The mask `(1 << n) - 1` leaves `n` bits. -/
theorem and_mask_lt (v n : Nat) : v &&& (1 <<< n - 1) < 2 ^ n :=
  Nat.and_lt_two_pow v (by rw [Nat.one_shiftLeft]; exact Nat.sub_lt (Nat.two_pow_pos n) Nat.one_pos)

theorem shiftRight_lt_two_pow {v k n m : Nat} (h : v < 2 ^ k) (hk : k = n + m) : v >>> n < 2 ^ m := by
  rw [Nat.shiftRight_eq_div_pow]
  exact Nat.div_lt_of_lt_mul (by rwa [← Nat.pow_add, ← hk])

/-- New bits above `k` valid ones. -/
theorem or_shiftLeft_lt {v b k n : Nat} (hv : v < 2 ^ k) (hb : b < 2 ^ n) : v ||| b <<< k < 2 ^ (k + n) := by
  refine Nat.or_lt_two_pow (hv.trans_le (Nat.pow_le_pow_right Nat.two_pos (Nat.le_add_right k n))) ?_
  rw [Nat.add_comm]
  exact Nat.shiftLeft_lt hb

/-- New bits below `k` valid ones. -/
theorem shiftLeft_or_lt {v b k n : Nat} (hv : v < 2 ^ k) (hb : b < 2 ^ n) : v <<< n ||| b < 2 ^ (k + n) :=
  Nat.or_lt_two_pow (Nat.shiftLeft_lt hv)
    (hb.trans_le (Nat.pow_le_pow_right Nat.two_pos (Nat.le_add_left n k)))

theorem eq_zero_of_toNat_lt_one {w : Nat} {x : BitVec w} (h : x.toNat < 1) : x = 0 :=
  BitVec.eq_of_toNat_eq (by simpa using h)

/-! ### The two draining loops, with the fuel they are given -/

/-- `EmitText` does not read or write CNT and GCNT. -/
theorem emitTexts_counts (s : State) (cs : List Byte) (cnt : BitVec 6) (gcnt : BitVec 3) :
    State.emitTexts { s with cnt := cnt, gcnt := gcnt } cs = { s.emitTexts cs with cnt := cnt, gcnt := gcnt } :=
  (emitTexts_working s cs s.acc cnt gcnt).trans (by rw [← emitTexts_acc s cs])

/-- The state after the loop of 42_base32.md R161 when it has written the symbols `cs`: groups of five bits have
left CNT, and GCNT has counted them. -/
def State.drained32 (s : State) (cs : List Byte) : State :=
  { s.emitTexts cs with
    cnt := BitVec.ofNat 6 (s.cnt.toNat % 5), gcnt := s.gcnt + BitVec.ofNat 3 (s.cnt.toNat / 5) }

theorem drained32_of_lt {s : State} (h : s.cnt.toNat < 5) : s.drained32 [] = s := by
  simp [State.drained32, Nat.mod_eq_of_lt h, Nat.div_eq_of_lt h]

/-- One turn of the loop, then the rest of it. -/
theorem drained32_cons {s : State} (h : 5 ≤ s.cnt.toNat) (c : Byte) (cs : List Byte) :
    State.drained32 { s.emitText c with cnt := s.cnt - 5, gcnt := s.gcnt + 1 } cs = s.drained32 (c :: cs) := by
  have hcnt : (s.cnt - 5#6).toNat = s.cnt.toNat - 5 := by bv_omega
  have hmod : (s.cnt.toNat - 5) % 5 = s.cnt.toNat % 5 := by omega
  have hdiv : s.cnt.toNat / 5 = 1 + (s.cnt.toNat - 5) / 5 := by omega
  simp only [State.drained32, emitTexts_counts, emitTexts_cons, hcnt, hmod, hdiv, BitVec.ofNat_add,
    BitVec.ofNat_eq_ofNat, BitVec.add_assoc]

theorem drainSymbols32_eq (fuel : Nat) (s : State) (h : s.cnt.toNat ≤ fuel) :
    ∃ cs, drainSymbols32 fuel s = s.drained32 cs := by
  induction fuel generalizing s with
  | zero => exact ⟨[], (drained32_of_lt (s := s) (by omega)).symm⟩
  | succ fuel ih =>
    unfold drainSymbols32
    split
    · next hfive =>
      simp only [emitText_cnt, emitText_gcnt]
      obtain ⟨cs, hcs⟩ := ih { s.emitText _ with cnt := s.cnt - 5, gcnt := s.gcnt + 1 }
        (show (s.cnt - 5).toNat ≤ fuel by bv_omega)
      exact ⟨_, hcs.trans (drained32_cons hfive _ cs)⟩
    · next hfew => exact ⟨[], (drained32_of_lt (by omega)).symm⟩

/-- The state after the loop of 44_base91.md R204 when it has written `units`: the whole bytes have left ACC. -/
def State.drained91 (s : State) (units : List Byte) : State :=
  { s with
    out := s.out ++ units
    acc := s.acc >>> (8 * (s.cnt.toNat / 8)), cnt := BitVec.ofNat 6 (s.cnt.toNat % 8) }

theorem drained91_of_lt {s : State} (h : s.cnt.toNat < 8) : s.drained91 [] = s := by
  simp [State.drained91, Nat.mod_eq_of_lt h, Nat.div_eq_of_lt h]

/-- One turn of the loop, then the rest of it. -/
theorem drained91_cons {s : State} (h : 8 ≤ s.cnt.toNat) (b : Byte) (units : List Byte) :
    State.drained91 { s.emitByte b with acc := s.acc >>> 8, cnt := s.cnt - 8 } units =
      s.drained91 (b :: units) := by
  have hcnt : (s.cnt - 8#6).toNat = s.cnt.toNat - 8 := by bv_omega
  have hmod : (s.cnt.toNat - 8) % 8 = s.cnt.toNat % 8 := by omega
  have hdiv : 8 * (s.cnt.toNat / 8) = 8 + 8 * ((s.cnt.toNat - 8) / 8) := by omega
  simp only [State.drained91, State.emitByte, hcnt, hmod, hdiv, BitVec.shiftRight_add, BitVec.ofNat_eq_ofNat,
    List.append_assoc, List.cons_append, List.nil_append]

theorem drainBytes91_eq (fuel : Nat) (s : State) (h : s.cnt.toNat ≤ fuel) :
    ∃ units, drainBytes91 fuel s = s.drained91 units := by
  induction fuel generalizing s with
  | zero => exact ⟨[], (drained91_of_lt (s := s) (by omega)).symm⟩
  | succ fuel ih =>
    unfold drainBytes91
    split
    · next hbyte =>
      have hacc : BitVec.ofNat 32 (s.acc.toNat >>> 8) = s.acc >>> 8 := by
        rw [← BitVec.toNat_ushiftRight, BitVec.ofNat_toNat, BitVec.setWidth_eq]
      simp only [emitByte_acc, emitByte_cnt, hacc]
      obtain ⟨units, hunits⟩ := ih { s.emitByte _ with acc := s.acc >>> 8, cnt := s.cnt - 8 }
        (show (s.cnt - 8).toNat ≤ fuel by bv_omega)
      exact ⟨_, hunits.trans (drained91_cons hbyte _ units)⟩
    · next hfew => exact ⟨[], (drained91_of_lt (by omega)).symm⟩

/-! ### PUSH in encode direction -/

theorem radixEncode_row (r w : Nat) (b : Byte) {s : State} (h : s.RadixEncodeRow) :
    (radixEncode r w b s).RadixEncodeRow := by
  simpa [State.RadixEncodeRow, State.noPending, radixEncode] using h

/-- CNT and GCNT step through the five pairs of the row (42_base32.md R162). -/
theorem base32_counts_step : ∀ p ∈ [(0, 0), (3, 1), (1, 3), (4, 4), (2, 6)],
    p.1 ≤ 4 ∧ ((p.1 + 8) % 5, (p.2 + (p.1 + 8) / 5) % 8) ∈ [(0, 0), (3, 1), (1, 3), (4, 4), (2, 6)] := by
  decide

theorem pushEncodeBase32_midInvocation (b : Byte) {s : State} (hrow : s.Base32EncodeRow) (hline : s.LposInLine) :
    (pushEncodeBase32 b s).Base32EncodeRow ∧ (pushEncodeBase32 b s).LposInLine := by
  obtain ⟨-, hcounts, hpending⟩ := hrow
  obtain ⟨hle, hstep⟩ := base32_counts_step _ hcounts
  unfold pushEncodeBase32
  extract_lets s1 s2
  obtain ⟨cs, hs2⟩ : ∃ cs, s2 = s1.drained32 cs := drainSymbols32_eq _ s1 le_rfl
  have hcnt1 : s1.cnt.toNat = s.cnt.toNat + 8 := by
    show (s.cnt + 8).toNat = _
    bv_omega
  have hcnt : s2.cnt.toNat = (s.cnt.toNat + 8) % 5 := by
    rw [hs2, ← hcnt1]
    exact Nat.mod_eq_of_lt (by omega)
  have hgcnt : s2.gcnt.toNat = (s.gcnt.toNat + (s.cnt.toNat + 8) / 5) % 8 := by
    rw [hs2, ← hcnt1]
    show (s.gcnt + BitVec.ofNat 3 (s1.cnt.toNat / 5)).toNat = _
    simp
  refine ⟨⟨toNat_ofNat_lt (and_mask_lt _ _), ?_, ?_⟩, ?_⟩
  · show (s2.cnt.toNat, s2.gcnt.toNat) ∈ _
    rw [hcnt, hgcnt]
    exact hstep
  · show s2.noPending
    rw [hs2]
    simpa [State.noPending, State.drained32] using hpending
  · show s2.LposInLine
    rw [hs2]
    exact emitTexts_lposInLine (s := s1) cs hline

theorem pushEncodeBase85_row (b : Byte) {s : State} (hrow : s.Base85EncodeRow) :
    (pushEncodeBase85 b s).Base85EncodeRow := by
  obtain ⟨hacc, hcnt, hgcnt, hpending⟩ := hrow
  have hnext : (s.gcnt + 1).toNat = s.gcnt.toNat + 1 := by bv_omega
  unfold pushEncodeBase85
  extract_lets s1 t
  split
  · have ht : t.cnt = 0 ∧ t.noPending := by
      unfold t
      split <;> simpa [State.noPending] using ⟨hcnt, hpending⟩
    obtain ⟨htcnt, htpending⟩ := ht
    exact ⟨Nat.two_pow_pos _, htcnt, Nat.zero_le 3, htpending⟩
  · next hfour =>
    refine ⟨toNat_ofNat_lt ?_, hcnt, ?_, hpending⟩
    · show _ < 2 ^ (8 * (s.gcnt + 1).toNat)
      rw [hnext]
      exact shiftLeft_or_lt hacc b.isLt
    · change ¬ (s.gcnt + 1 = 4) at hfour
      show (s.gcnt + 1).toNat ≤ 3
      bv_omega

theorem pushEncodeBase85_lposInLine (b : Byte) {s : State} (hline : s.LposInLine) :
    (pushEncodeBase85 b s).LposInLine := by
  unfold pushEncodeBase85
  extract_lets s1 t
  split
  · show t.LposInLine
    unfold t
    split
    · exact emitText_lposInLine (s := s1) _ hline
    · exact emitTexts_lposInLine (s := s1) _ hline
  · exact hline

/-- A Base91 value takes 13 or 14 bits (44_base91.md R200). -/
theorem payloadBits_cases (v : Nat) : payloadBits v = 13 ∨ payloadBits v = 14 := by
  unfold payloadBits
  split
  · exact .inl rfl
  · exact .inr rfl

theorem pushEncodeBase91_midInvocation (b : Byte) {s : State} (hrow : s.Base91EncodeRow) (hline : s.LposInLine) :
    (pushEncodeBase91 b s).Base91EncodeRow ∧ (pushEncodeBase91 b s).LposInLine := by
  obtain ⟨hacc, hcnt, hgcnt, hpending⟩ := hrow
  unfold pushEncodeBase91
  extract_lets s1 n ch s2
  have hcnt1 : s1.cnt.toNat = s.cnt.toNat + 8 := by
    show (s.cnt + 8).toNat = _
    bv_omega
  have hacc1 : s1.acc.toNat < 2 ^ s1.cnt.toNat := by
    rw [hcnt1]
    exact toNat_ofNat_lt (or_shiftLeft_lt hacc b.isLt)
  split
  · next hfull =>
    have hn : n = 13 ∨ n = 14 := payloadBits_cases _
    have hcnt2 : s2.cnt.toNat = s1.cnt.toNat - n := by
      show (s1.cnt - BitVec.ofNat 6 n).toNat = _
      obtain hn | hn := hn <;> rw [hn] <;> bv_omega
    have hacc2 : s2.acc.toNat < 2 ^ s2.cnt.toNat :=
      toNat_ofNat_lt (shiftRight_lt_two_pow hacc1 (by omega))
    refine ⟨?_, emitTexts_lposInLine (s := s2) _ hline⟩
    simp only [State.Base91EncodeRow, State.noPending, emitTexts_acc, emitTexts_cnt, emitTexts_gcnt, emitTexts_pend,
      emitTexts_pendv, emitTexts_padseen]
    exact ⟨hacc2, by omega, hgcnt, hpending⟩
  · exact ⟨⟨hacc1, by omega, hgcnt, hpending⟩, hline⟩

theorem pushEncode_midInvocation (b : Byte) {s : State} (h : s.MidInvocation .encode s.mode) :
    (pushEncode b s).MidInvocation .encode s.mode := by
  obtain ⟨hrow, hline⟩ := h
  unfold pushEncode
  generalize s.mode = m at hrow ⊢
  cases m with
  | base02 | base08 | base10 | base16 => exact ⟨radixEncode_row _ _ b hrow, emitTexts_lposInLine _ hline⟩
  | base32 => exact pushEncodeBase32_midInvocation b hrow hline
  | base85 => exact ⟨pushEncodeBase85_row b hrow, pushEncodeBase85_lposInLine b hline⟩
  | base91 => exact pushEncodeBase91_midInvocation b hrow hline

/-! ### PUSH in decode direction, where a DecodeFault ends the invocation -/

/-- What holds of the completed state, if the rule completes. -/
def Completes (P : State → Prop) : Except RaisedFault State → Prop
  | .ok t => P t
  | .error _ => True

/-- One more digit below the ones of a group. -/
theorem digit_lt_pow {v d r k : Nat} (hv : v < r ^ k) (hd : d < r) : v * r + d < r ^ (k + 1) :=
  calc v * r + d < v * r + r := Nat.add_lt_add_left hd _
    _ = (v + 1) * r := (Nat.succ_mul v r).symm
    _ ≤ r ^ k * r := Nat.mul_le_mul_right r hv

theorem radixDecode_midInvocation {r w : Nat} (hw : w ≤ 8) (c : Byte) {s : State} (hrow : s.radixRow r w)
    (hline : s.LposInLine) : Completes (fun t => t.radixRow r w ∧ t.LposInLine) (radixDecode r w c s) := by
  obtain ⟨hacc, hcnt, hgcnt, hpending⟩ := hrow
  unfold radixDecode
  cases digitValue c with
  | none => trivial
  | some d =>
    dsimp only
    split
    · trivial
    · next hdigit =>
      split
      · split
        · trivial
        · exact ⟨⟨Nat.one_pos, hcnt, show 0 < w by omega, hpending⟩, hline⟩
      · next hmore =>
        have hnext : (s.gcnt + 1).toNat = s.gcnt.toNat + 1 := by bv_omega
        refine ⟨⟨toNat_ofNat_lt ?_, hcnt, show (s.gcnt + 1).toNat < w by omega, hpending⟩, hline⟩
        show _ < r ^ (s.gcnt + 1).toNat
        rw [hnext]
        exact digit_lt_pow hacc (Nat.lt_of_not_le hdigit)

theorem pushDecodeBase32_midInvocation (c : Byte) {s : State} (hrow : s.Base32DecodeRow) (hline : s.LposInLine) :
    Completes (fun t => t.Base32DecodeRow ∧ t.LposInLine) (pushDecodeBase32 c s) := by
  have ⟨_, hcnt, hgcnt, hpend, hpendv⟩ := hrow
  unfold pushDecodeBase32
  split
  · exact ⟨hrow, hline⟩
  · split
    · trivial
    · next d _ =>
      extract_lets s1 emitted s2
      have hcnt1 : s1.cnt.toNat = s.cnt.toNat + 5 := by
        show (s.cnt + 5).toNat = _
        bv_omega
      have hs2 : s2.cnt.toNat ≤ 7 ∧ s2.gcnt = 0 ∧ s2.pend = 0 ∧ s2.pendv = false ∧ s2.LposInLine := by
        unfold s2
        split
        · exact ⟨show (s1.cnt - 8).toNat ≤ 7 by bv_omega, hgcnt, hpend, hpendv, hline⟩
        · exact ⟨by omega, hgcnt, hpend, hpendv, hline⟩
      obtain ⟨hcnt2, hgcnt2, hpend2, hpendv2, hline2⟩ := hs2
      exact ⟨⟨toNat_ofNat_lt (and_mask_lt _ _), hcnt2, hgcnt2, hpend2, hpendv2⟩, hline2⟩

theorem pushDecodeBase85_midInvocation (c : Byte) {s : State} (hrow : s.Base85DecodeRow) (hline : s.LposInLine) :
    Completes (fun t => t.Base85DecodeRow ∧ t.LposInLine) (pushDecodeBase85 c s) := by
  have ⟨_, hcnt, hgcnt, hpending⟩ := hrow
  unfold pushDecodeBase85
  split
  · split
    · rw [emitBytes_eq]
      exact ⟨hrow, hline⟩
    · trivial
  · split
    · trivial
    · next d _ =>
      obtain ⟨-, -, heq⟩ | ⟨-, heq⟩ := assignAcc85_cases (s.acc.toNat + d * pow85 s.gcnt.toNat) c s
      · rw [heq]
        trivial
      · rw [heq]
        dsimp only
        split
        · rw [emitBytes_eq]
          exact ⟨⟨fun _ => rfl, hcnt, Nat.zero_le 4, hpending⟩, hline⟩
        · next hfive =>
          have hnonzero : s.gcnt + 1 ≠ 0 := by bv_omega
          have hle : (s.gcnt + 1).toNat ≤ 4 := by bv_omega
          exact ⟨⟨fun h => absurd h hnonzero, hcnt, hle, hpending⟩, hline⟩

/-- A pair of Base91 symbols fits in the bits it carries (44_base91.md R200, R204). -/
theorem pair_lt_payload {p d : Nat} (hp : p ≤ 90) (hd : d < 91) : p + d * 91 < 2 ^ payloadBits (p + d * 91) := by
  have hmask : (p + d * 91) &&& 8191 = (p + d * 91) % 8192 := Nat.and_two_pow_sub_one_eq_mod _ 13
  unfold payloadBits
  rw [hmask]
  split <;> omega

/-- What the loop of 44_base91.md R204 leaves fits in the bits that CNT still counts. -/
theorem drained91_acc_lt {s : State} (units : List Byte) (h : s.acc.toNat < 2 ^ s.cnt.toNat) :
    (s.drained91 units).acc.toNat < 2 ^ (s.drained91 units).cnt.toNat := by
  have hcnt : (s.drained91 units).cnt.toNat = s.cnt.toNat % 8 := Nat.mod_eq_of_lt (by omega)
  rw [hcnt]
  show s.acc.toNat >>> _ < _
  exact shiftRight_lt_two_pow h (by omega)

theorem pushDecodeBase91_midInvocation (c : Byte) {s : State} (hrow : s.Base91DecodeRow) (hline : s.LposInLine) :
    Completes (fun t => t.Base91DecodeRow ∧ t.LposInLine) (pushDecodeBase91 c s) := by
  obtain ⟨hacc, hcnt, hgcnt, hpend, hpendv, hpadseen⟩ := hrow
  unfold pushDecodeBase91
  split
  · trivial
  · next d hd =>
    have hlt : d < 91 := idx91_lt s.cfg c d hd
    split
    · extract_lets v s1
      obtain ⟨units, hdrain⟩ := drainBytes91_eq s1.cnt.toNat s1 le_rfl
      have hn : payloadBits v = 13 ∨ payloadBits v = 14 := payloadBits_cases v
      have hcnt1 : s1.cnt.toNat = s.cnt.toNat + payloadBits v := by
        show (s.cnt + BitVec.ofNat 6 (payloadBits v)).toNat = _
        obtain hn | hn := hn <;> rw [hn] <;> bv_omega
      have hacc1 : s1.acc.toNat < 2 ^ s1.cnt.toNat := by
        rw [hcnt1]
        exact toNat_ofNat_lt (or_shiftLeft_lt hacc (pair_lt_payload hpend hlt))
      rw [hdrain]
      refine ⟨⟨drained91_acc_lt units hacc1, ?_, hgcnt, Nat.zero_le 90, fun _ => rfl, hpadseen⟩, hline⟩
      exact Nat.le_of_lt_succ (toNat_ofNat_lt (Nat.mod_lt _ (by decide)))
    · have hsymbol : (BitVec.ofNat 7 d).toNat ≤ 90 := Nat.le_of_lt_succ (toNat_ofNat_lt hlt)
      exact ⟨⟨hacc, hcnt, hgcnt, hsymbol, fun h => absurd h.symm Bool.false_ne_true, hpadseen⟩, hline⟩

theorem pushDecode_midInvocation (c : Byte) {s : State} (h : s.MidInvocation .decode s.mode) :
    Completes (·.MidInvocation .decode s.mode) (pushDecode c s) := by
  obtain ⟨hrow, hline⟩ := h
  unfold pushDecode
  generalize s.mode = m at hrow ⊢
  cases m with
  | base02 | base08 | base10 | base16 => exact radixDecode_midInvocation (by decide) c hrow hline
  | base32 => exact pushDecodeBase32_midInvocation c hrow hline
  | base85 => exact pushDecodeBase85_midInvocation c hrow hline
  | base91 => exact pushDecodeBase91_midInvocation c hrow hline

theorem pushFiltered_midInvocation (c : Byte) {s : State} (h : s.MidInvocation .decode s.mode) :
    (pushFiltered c s).MidInvocation .decode s.mode ∨ (pushFiltered c s).phase = .fault := by
  unfold pushFiltered
  split
  · exact .inl h
  · split
    · exact .inl h
    · have hrule := pushDecode_midInvocation c h
      obtain ⟨t, hr, ht⟩ | ⟨f, -, hf⟩ := settle_cases s (pushDecode c s)
      · rw [hr] at hrule
        exact .inl (ht ▸ hrule)
      · exact .inr (hf ▸ raiseDecodeFault_phase f s)

/-- A PUSH keeps what holds in the middle of an invocation, or ends it in FAULT. -/
theorem exec_push_midInvocation {b : Byte} {s t : State} (hexec : exec (.push b) s = .next t)
    (hphase : s.phase = .active) (h : s.MidInvocation s.dir s.mode) :
    t.MidInvocation s.dir s.mode ∨ t.phase = .fault := by
  cases hexec
  rw [insideActive_of_active _ _ hphase]
  cases hdir : s.dir with
  | encode => exact .inl (pushEncode_midInvocation b (hdir ▸ h))
  | decode => exact pushFiltered_midInvocation b (hdir ▸ h)

/-! ### FLUSH -/

theorem flushEncodeBase32_noTail {s : State} (h : s.Base32EncodeRow) : (flushEncodeBase32 s).NoTail := by
  obtain ⟨hacc, -, hpend, hpendv, -⟩ := h
  have hfinal : (finalSymbol32 s).acc = 0 ∧ (finalSymbol32 s).cnt = 0 ∧ (finalSymbol32 s).pend = 0 ∧
      (finalSymbol32 s).pendv = false := by
    unfold finalSymbol32
    split
    · simpa using ⟨hpend, hpendv⟩
    · next hzero =>
      have hcnt : s.cnt.toNat = 0 := by omega
      rw [hcnt] at hacc
      exact ⟨eq_zero_of_toNat_lt_one hacc, BitVec.eq_of_toNat_eq hcnt, hpend, hpendv⟩
  unfold flushEncodeBase32
  rw [padToEight_eq 8 _ (by omega)]
  simpa [State.NoTail] using hfinal

theorem flushEncodeBase85_noTail {s : State} (h : s.Base85EncodeRow) : (flushEncodeBase85 s).NoTail := by
  obtain ⟨hacc, hcnt, -, hpend, hpendv, -⟩ := h
  unfold flushEncodeBase85
  split
  · simpa [State.NoTail] using ⟨hcnt, hpend, hpendv⟩
  · next hzero =>
    have hgcnt : s.gcnt.toNat = 0 := by omega
    rw [hgcnt] at hacc
    exact ⟨eq_zero_of_toNat_lt_one hacc, hcnt, BitVec.eq_of_toNat_eq hgcnt, hpend, hpendv⟩

theorem flushEncodeBase91_noTail {s : State} (h : s.Base91EncodeRow) : (flushEncodeBase91 s).NoTail := by
  obtain ⟨hacc, -, hgcnt, hpend, hpendv, -⟩ := h
  unfold flushEncodeBase91
  split
  · extract_lets t t1
    have ht1 : t1.gcnt = 0 ∧ t1.pend = 0 ∧ t1.pendv = false := by
      unfold t1 t
      split <;> simpa using ⟨hgcnt, hpend, hpendv⟩
    exact ⟨rfl, rfl, ht1⟩
  · next hzero =>
    have hcnt : s.cnt.toNat = 0 := by omega
    rw [hcnt] at hacc
    exact ⟨eq_zero_of_toNat_lt_one hacc, BitVec.eq_of_toNat_eq hcnt, hgcnt, hpend, hpendv⟩

theorem flushEncode_noTail {s : State} (h : s.Row .encode s.mode) : (flushEncode s).NoTail := by
  unfold flushEncode
  generalize s.mode = m at h ⊢
  cases m with
  | base02 | base08 | base10 | base16 =>
    obtain ⟨hacc, hcnt, hgcnt, hpend, hpendv, -⟩ := h
    exact ⟨hacc, hcnt, hgcnt, hpend, hpendv⟩
  | base32 => exact flushEncodeBase32_noTail h
  | base85 => exact flushEncodeBase85_noTail h
  | base91 => exact flushEncodeBase91_noTail h

theorem flushDecodeRadix_noTail {r w : Nat} {s : State} (h : s.radixRow r w) :
    Completes State.NoTail (flushDecodeRadix s) := by
  obtain ⟨-, hcnt, -, hpend, hpendv, -⟩ := h
  exact ⟨rfl, hcnt, rfl, hpend, hpendv⟩

theorem flushDecodeBase32_noTail {s : State} (h : s.Base32DecodeRow) :
    Completes State.NoTail (flushDecodeBase32 s) := by
  obtain ⟨-, -, hgcnt, hpend, hpendv⟩ := h
  unfold flushDecodeBase32
  split
  · trivial
  · exact ⟨rfl, rfl, hgcnt, hpend, hpendv⟩

theorem flushDecodeBase85_noTail {s : State} (h : s.Base85DecodeRow) :
    Completes State.NoTail (flushDecodeBase85 s) := by
  obtain ⟨hacc, hcnt, -, hpend, hpendv, -⟩ := h
  unfold flushDecodeBase85
  split
  · trivial
  · split
    · obtain ⟨-, -, heq⟩ | ⟨-, heq⟩ := assignAcc85_cases (s.acc.toNat + pow85 (s.gcnt.toNat - 1)) 0 s
      · rw [heq]
        trivial
      · rw [heq]
        dsimp only
        rw [emitBytes_eq]
        exact ⟨rfl, hcnt, rfl, hpend, hpendv⟩
    · have hgcnt : s.gcnt = 0 := by bv_omega
      exact ⟨hacc hgcnt, hcnt, hgcnt, hpend, hpendv⟩

theorem flushDecodeBase91_noTail {s : State} (h : s.Base91DecodeRow) :
    Completes State.NoTail (flushDecodeBase91 s) := by
  obtain ⟨-, -, hgcnt, -, hpend, -⟩ := h
  unfold flushDecodeBase91
  dsimp only
  split
  · exact ⟨rfl, rfl, hgcnt, rfl, rfl⟩
  · next hnone =>
    have hpendv : s.pendv = false := Bool.eq_false_of_not_eq_true hnone
    exact ⟨rfl, rfl, hgcnt, hpend hpendv, hpendv⟩

theorem flushDecode_noTail {s : State} (h : s.Row .decode s.mode) : Completes State.NoTail (flushDecode s) := by
  unfold flushDecode
  generalize s.mode = m at h ⊢
  cases m with
  | base02 | base08 | base10 | base16 =>
    exact flushDecodeRadix_noTail h
  | base32 => exact flushDecodeBase32_noTail h
  | base85 => exact flushDecodeBase85_noTail h
  | base91 => exact flushDecodeBase91_noTail h

/-- A FLUSH leaves no tail, or ends the invocation in FAULT (40_control.md R115). -/
theorem exec_flush_noTail {s t : State} (hexec : exec .flush s = .next t) (hphase : s.phase = .active)
    (h : s.Row s.dir s.mode) : t.NoTail ∨ t.phase = .fault := by
  cases hexec
  rw [insideActive_of_active _ _ hphase]
  unfold flushRule
  cases hdir : s.dir with
  | encode => exact .inl (flushEncode_noTail (hdir ▸ h))
  | decode =>
    have hrule := flushDecode_noTail (hdir ▸ h)
    dsimp only
    cases hr : flushDecode s with
    | ok u =>
      rw [hr] at hrule
      exact .inl hrule
    | error f => exact .inr (raiseDecodeFault_phase f s)

/-! ### The invariant under each effect of a command -/

/-- Settles O47: the reset state is idle, with empty records and SEPLEN = 1, by evaluation. -/
theorem invariantAtReset : Obligations.InvariantAtReset := by
  unfold Obligations.InvariantAtReset
  decide

/-- The invariant does not speak of the parameters and of the port. -/
theorem applyReset_inv (s : State) : (applyReset s).Inv := invariantAtReset

theorem raiseCmdError_inv {s : State} {code : CmdErrorCode} (hcode : code ≠ .none) (h : s.Inv) :
    (raiseCmdError code s).Inv := by
  obtain ⟨hactive, hdone, hfault, herror, hseplen⟩ := h
  refine ⟨hactive, hdone, hfault, iff_of_true rfl ?_, hseplen⟩
  rw [raiseCmdError_cecode]
  split
  · next hset => exact herror.mp hset
  · exact hcode

theorem raiseDecodeFault_inv {s : State} {f : RaisedFault} (hcode : f.code ≠ .none) (h : s.Inv) :
    (raiseDecodeFault f s).Inv := by
  obtain ⟨-, -, -, herror, hseplen⟩ := h
  exact ⟨nofun, nofun, ⟨iff_of_true rfl hcode, fun hnone => absurd hnone hcode, fun _ => rfl⟩, herror, hseplen⟩

/-- At the start of an invocation every row holds. -/
theorem startInvocation_row (d : Dir) (m : Mode) (s : State) : (startInvocation d m s).Row d m := by
  have hpending : (startInvocation d m s).noPending := ⟨rfl, rfl, rfl⟩
  cases d with
  | encode =>
    cases m with
    | base02 | base08 | base10 | base16 => exact ⟨rfl, rfl, rfl, hpending⟩
    | base32 => exact ⟨Nat.one_pos, List.mem_cons_self, hpending⟩
    | base85 | base91 => exact ⟨Nat.one_pos, by simp, by simp, hpending⟩
  | decode =>
    cases m with
    | base02 | base08 | base10 | base16 => exact ⟨Nat.one_pos, rfl, by simp, hpending⟩
    | base32 => exact ⟨Nat.one_pos, Nat.zero_le 7, rfl, rfl, rfl⟩
    | base85 => exact ⟨fun _ => rfl, rfl, Nat.zero_le 4, hpending⟩
    | base91 => exact ⟨Nat.one_pos, Nat.zero_le 7, rfl, Nat.zero_le 90, fun _ => rfl, rfl⟩

theorem startInvocation_inv {s : State} (d : Dir) (m : Mode) (h : s.Inv) : (startInvocation d m s).Inv := by
  obtain ⟨-, -, -, herror, hseplen⟩ := h
  have hline : (startInvocation d m s).LposInLine := Nat.lt_of_lt_of_le Nat.one_pos (Nat.le_max_right _ 1)
  refine ⟨(activeInv_iff _).mpr fun _ => ⟨startInvocation_row d m s, hline⟩, nofun, ⟨?_, fun _ => rfl, nofun⟩,
    herror, hseplen⟩
  exact iff_of_false nofun fun hne => hne rfl

theorem DataEffect.eq_update {s t : State} (h : DataEffect s t) :
    ∃ units, t = { s with
      out := s.out ++ units
      acc := t.acc, cnt := t.cnt, gcnt := t.gcnt, lpos := t.lpos
      pend := t.pend, pendv := t.pendv, padseen := t.padseen } := by
  obtain ⟨units, h⟩ := h
  exact ⟨units, eq_update_of_sameButWorking h⟩

theorem DataEffect.phase_eq {s t : State} (h : DataEffect s t) : t.phase = s.phase := by
  obtain ⟨units, ht⟩ := h.eq_update
  rw [ht]

/-- Between the commands of an invocation the registers outside the working ones keep their part of the invariant. -/
theorem DataEffect.inv {s t : State} (hdata : DataEffect s t) (hphase : s.phase = .active) (h : s.Inv)
    (hmid : t.MidInvocation s.dir s.mode) : t.Inv := by
  obtain ⟨-, -, hfault, herror, hseplen⟩ := h
  obtain ⟨units, ht⟩ := hdata.eq_update
  have hactive : t.activeInv := by
    rw [activeInv_iff, show t.dir = s.dir by rw [ht], show t.mode = s.mode by rw [ht]]
    exact fun _ => hmid
  have hdone : t.doneInv := fun hp => nomatch hphase.symm.trans (hdata.phase_eq.symm.trans hp)
  refine ⟨hactive, hdone, ?_⟩
  rw [ht]
  exact ⟨hfault, herror, hseplen⟩

/-- A FLUSH that completes closes an invocation whose records are those of ACTIVE. -/
theorem DataEffect.inv_done {s t : State} (hdata : DataEffect s t) (hphase : s.phase = .active) (h : s.Inv)
    (htail : t.NoTail) : State.Inv { t with phase := .done } := by
  obtain ⟨-, -, ⟨hfault, hchar, -⟩, herror, hseplen⟩ := h
  obtain ⟨units, ht⟩ := hdata.eq_update
  have hnone : ¬ s.fcode ≠ .none := fun hne => nomatch hphase.symm.trans (hfault.mpr hne)
  refine ⟨nofun, fun _ => htail, ?_⟩
  rw [ht]
  exact ⟨⟨iff_of_false nofun hnone, hchar, nofun⟩, herror, hseplen⟩

theorem exec_inv {i : Instr} {s t : State} (hexec : exec i s = .next t) (h : s.Inv) : t.Inv := by
  have ⟨hactive, hdone, hfault, herror, hseplen⟩ := h
  have hmid := (activeInv_iff s).mp hactive
  cases commandEffect_of_exec hexec with
  | badSequence | reservedMode => exact raiseCmdError_inv nofun h
  | opened => exact startInvocation_inv _ _ h
  | faulted _ _ _ hlegal =>
    obtain ⟨hcode, -⟩ := hlegal
    exact raiseDecodeFault_inv hcode h
  | lineLength _ hphase => exact ⟨fun hp => absurd hp hphase, hdone, hfault, herror, hseplen⟩
  | firstSeparator _ hphase => exact ⟨fun hp => absurd hp hphase, hdone, hfault, herror, .inl rfl⟩
  | secondSeparator _ hphase => exact ⟨fun hp => absurd hp hphase, hdone, hfault, herror, .inr rfl⟩
  | pushed hphase hdata =>
    obtain hm | hf := exec_push_midInvocation hexec hphase (hmid hphase)
    · exact hdata.inv hphase h hm
    · nomatch hphase.symm.trans (hdata.phase_eq.symm.trans hf)
  | flushed hphase hdata =>
    obtain ⟨hrow, -⟩ := hmid hphase
    obtain htail | hf := exec_flush_noTail hexec hphase hrow
    · exact hdata.inv_done hphase h htail
    · cases hf

/-- A step on a word that is a command is that command, with the word taken off the port. -/
theorem step_of_command {s : State} {w : CommandWord} {rest : List PortEvent} {i : Instr}
    (hport : s.port = .command w :: rest) (hdecode : decode w = .ok i) :
    step s = exec i { s with port := rest } := by
  unfold step State.nextEvent
  rw [hport]
  dsimp only
  rw [hdecode]

/-- Settles O48: of all a step can do, each effect keeps the invariant. -/
theorem stepKeepsInvariant : Obligations.StepKeepsInvariant := by
  intro s t h hstep
  cases stepEffect_of_step hstep with
  | waited => exact h
  | wasReset => exact applyReset_inv _
  | illegal => exact raiseCmdError_inv nofun h
  | ran hport hdecode _ => exact exec_inv ((step_of_command hport hdecode).symm.trans hstep) h

end Sys2Proof.Machine
end

section
/-! PROOFS. The output stream OUT is append-only (20_memory.md R63, R73): what each command leaves of it. -/

namespace Sys2Proof.Machine

theorem out_grows_of_out_eq {s t : State} (h : t.out = s.out) : ∃ units, t.out = s.out ++ units :=
  ⟨[], by rw [h, List.append_nil]⟩

/-- The rules of PUSH and FLUSH reach OUT through emission alone (40_control.md R120, R121). -/
theorem DataEffect.out_grows {s t : State} (h : DataEffect s t) : ∃ units, t.out = s.out ++ units := by
  obtain ⟨units, ht⟩ := h.eq_update
  exact ⟨units, congrArg State.out ht⟩

/-- A command that moves no data, and one that raises a CmdError or a DecodeFault, appends nothing
(60_exceptions.md R224, R230); the others are data effects. -/
theorem CommandEffect.out_grows {s t : State} {i : Instr} (h : CommandEffect s i t) :
    ∃ units, t.out = s.out ++ units := by
  cases h with
  | pushed _ hdata | flushed _ hdata => exact hdata.out_grows
  | badSequence | reservedMode => exact out_grows_of_out_eq (raiseCmdError_out _ s)
  | opened => exact out_grows_of_out_eq (startInvocation_out _ _ s)
  | faulted => exact out_grows_of_out_eq (raiseDecodeFault_out _ s)
  | lineLength | firstSeparator | secondSeparator => exact out_grows_of_out_eq rfl

/-- Settles O19: of all a step can do, only RESET takes anything from OUT. -/
theorem outOnlyGrows : Obligations.OutOnlyGrows := by
  intro s t hstep hnoReset
  cases stepEffect_of_step hstep with
  | waited => exact out_grows_of_out_eq rfl
  | wasReset hport => exact absurd (congrArg List.head? hport) hnoReset
  | illegal => exact out_grows_of_out_eq (raiseCmdError_out _ _)
  | ran _ _ heffect => exact heffect.out_grows

end Sys2Proof.Machine
end

section
/-! PROOFS. Commands and their words (30_encoding.md part A): the decoder's mask tests read as ranges of words, which
words are commands, and what the decoder makes of the words the encoder writes. -/

namespace Sys2Proof.Machine

/-! ### The opcode map (R82 to R87) -/

/-- A test of all but the low `k` bits of a word is a test for an aligned range of `2 ^ k` words. -/
theorem and_mask_eq_iff_range (w p : CommandWord) (k : Nat) {last : Nat} (hp : 2 ^ k ∣ p.toNat)
    (hlast : last + 1 = p.toNat + 2 ^ k) :
    w &&& (BitVec.allOnes 16 <<< k) = p ↔ p.toNat ≤ w.toNat ∧ w.toNat ≤ last := by
  have hmasked : (w &&& (BitVec.allOnes 16 <<< k)).toNat = 2 ^ k * (w.toNat / 2 ^ k) := by
    have hle : 2 ^ k * (w.toNat / 2 ^ k) < 2 ^ 16 := (Nat.mul_div_le _ _).trans_lt w.isLt
    rw [← BitVec.shiftLeft_ushiftRight, BitVec.toNat_shiftLeft, BitVec.toNat_ushiftRight,
      Nat.shiftRight_eq_div_pow, Nat.shiftLeft_eq, Nat.mul_comm, Nat.mod_eq_of_lt hle]
  obtain ⟨q, hq⟩ := hp
  have hpos : 0 < 2 ^ k := Nat.two_pow_pos k
  rw [BitVec.toNat_eq, hmasked, hq, Nat.mul_right_inj hpos.ne', Nat.div_eq_iff hpos, Nat.mul_comm]
  omega

/-- The decoder, with its mask tests read as the ranges of the opcode map. -/
theorem decode_eq_ranges (w : CommandWord) :
    decode w =
      if 0x1000 ≤ w.toNat ∧ w.toNat ≤ 0x100F then .ok (openOf (fieldDirMode w))
      else if 0x2000 ≤ w.toNat ∧ w.toNat ≤ 0x20FF then .ok (.push (fieldByte w))
      else if w.toNat = 0x3000 then .ok .flush
      else if 0x4000 ≤ w.toNat ∧ w.toNat ≤ 0x4FFF then .ok (.setll (fieldLen w))
      else if 0x5000 ≤ w.toNat ∧ w.toNat ≤ 0x51FF then .ok (.setsep (fieldSel w) (fieldByte w))
      else .error .illegalCommand := by
  have hopen : w &&& 0xFFF0#16 = 0x1000#16 ↔ 0x1000 ≤ w.toNat ∧ w.toNat ≤ 0x100F :=
    and_mask_eq_iff_range w 0x1000#16 4 (by decide) rfl
  have hpush : w &&& 0xFF00#16 = 0x2000#16 ↔ 0x2000 ≤ w.toNat ∧ w.toNat ≤ 0x20FF :=
    and_mask_eq_iff_range w 0x2000#16 8 (by decide) rfl
  have hflush : w = 0x3000#16 ↔ w.toNat = 0x3000 := BitVec.toNat_eq
  have hsetll : w &&& 0xF000#16 = 0x4000#16 ↔ 0x4000 ≤ w.toNat ∧ w.toNat ≤ 0x4FFF :=
    and_mask_eq_iff_range w 0x4000#16 12 (by decide) rfl
  have hsetsep : w &&& 0xFE00#16 = 0x5000#16 ↔ 0x5000 ≤ w.toNat ∧ w.toNat ≤ 0x51FF :=
    and_mask_eq_iff_range w 0x5000#16 9 (by decide) rfl
  simp only [decode, hopen, hpush, hflush, hsetll, hsetsep]

/-- Which command a word is, with its operands as fields of the word (R81 to R86). -/
inductive WordOf (w : CommandWord) : Instr → Prop
  | openRow (h : 0x1000 ≤ w.toNat ∧ w.toNat ≤ 0x100F) : WordOf w (openOf (fieldDirMode w))
  | push (h : 0x2000 ≤ w.toNat ∧ w.toNat ≤ 0x20FF) : WordOf w (.push (fieldByte w))
  | flush (h : w.toNat = 0x3000) : WordOf w .flush
  | setll (h : 0x4000 ≤ w.toNat ∧ w.toNat ≤ 0x4FFF) : WordOf w (.setll (fieldLen w))
  | setsep (h : 0x5000 ≤ w.toNat ∧ w.toNat ≤ 0x51FF) : WordOf w (.setsep (fieldSel w) (fieldByte w))

theorem WordOf.of_decode {w : CommandWord} {i : Instr} (h : decode w = .ok i) : WordOf w i := by
  rw [decode_eq_ranges] at h
  split_ifs at h with hopen hpush hflush hsetll hsetsep
  all_goals cases h
  · exact .openRow hopen
  · exact .push hpush
  · exact .flush hflush
  · exact .setll hsetll
  · exact .setsep hsetsep

theorem WordOf.decode_eq {w : CommandWord} {i : Instr} (h : WordOf w i) : decode w = .ok i := by
  rw [decode_eq_ranges]
  cases h with
  | openRow h => rw [if_pos h]
  | push h => rw [if_neg (by omega), if_pos h]
  | flush h => rw [if_neg (by omega), if_neg (by omega), if_pos h]
  | setll h => rw [if_neg (by omega), if_neg (by omega), if_neg (by omega), if_pos h]
  | setsep h => rw [if_neg (by omega), if_neg (by omega), if_neg (by omega), if_neg (by omega), if_pos h]

theorem exists_wordOf_iff (w : CommandWord) : (∃ i, WordOf w i) ↔ inLegalRange w := by
  constructor
  · rintro ⟨i, h⟩
    cases h <;> omega
  · rintro (h | h | h | h | h)
    · exact ⟨_, .openRow h⟩
    · exact ⟨_, .push h⟩
    · exact ⟨_, .flush h⟩
    · exact ⟨_, .setll h⟩
    · exact ⟨_, .setsep h⟩

theorem exists_decode_eq_ok_iff (w : CommandWord) : (∃ i, decode w = .ok i) ↔ inLegalRange w :=
  (exists_congr fun _ => ⟨WordOf.of_decode, WordOf.decode_eq⟩).trans (exists_wordOf_iff w)

theorem decode_eq_error_iff (w : CommandWord) : decode w = .error .illegalCommand ↔ ¬ inLegalRange w := by
  rw [← exists_decode_eq_ok_iff]
  cases decode w with
  | ok i => simp
  | error e => cases e; simp

/-! ### The words the encoder writes (R80, R81) -/

theorem toNat_fieldByte (w : CommandWord) : (fieldByte w).toNat = w.toNat % 0x100 :=
  BitVec.extractLsb'_toNat 0 8 w

theorem toNat_fieldLen (w : CommandWord) : (fieldLen w).toNat = w.toNat % 0x1000 :=
  BitVec.extractLsb'_toNat 0 12 w

theorem toNat_fieldDirMode (w : CommandWord) : (fieldDirMode w).toNat = w.toNat % 0x10 :=
  BitVec.extractLsb'_toNat 0 4 w

theorem toNat_fieldSel (w : CommandWord) : (fieldSel w).toNat = w.toNat / 0x100 % 2 := by
  rw [fieldSel, BitVec.extractLsb'_toNat, Nat.shiftRight_eq_div_pow]

/-- The bits of a word are those of its fields one after the other. -/
theorem toNat_append_eq_add {m n : Nat} (x : BitVec m) (y : BitVec n) :
    (x ++ y).toNat = x.toNat * 2 ^ n + y.toNat := by
  rw [BitVec.toNat_append, ← Nat.shiftLeft_add_eq_or_of_lt y.isLt, Nat.shiftLeft_eq]

theorem toNat_formatP (b : Byte) : (formatP b).toNat = 0x2000 + b.toNat :=
  toNat_append_eq_add _ b

theorem toNat_formatL (len : BitVec 12) : (formatL len).toNat = 0x4000 + len.toNat :=
  toNat_append_eq_add _ len

theorem toNat_formatS (sel : BitVec 1) (b : Byte) :
    (formatS sel b).toNat = 0x5000 + 0x100 * sel.toNat + b.toNat := by
  have hop : (5#4 ++ 0#3 : BitVec 7).toNat = 0x28 := rfl
  rw [formatS, toNat_append_eq_add, toNat_append_eq_add, hop]
  omega

/-- The sixteen OPEN words are numbered by `dir` and `mode` (the table after R86). -/
theorem toNat_encode_openOf (dirMode : BitVec 4) :
    (encode (openOf dirMode)).toNat = 0x1000 + dirMode.toNat := by
  revert dirMode
  decide

theorem decode_formatP (b : Byte) : decode (formatP b) = .ok (.push b) := by
  have hfield : fieldByte (formatP b) = b := BitVec.extractLsb'_append_eq_right
  have hword : WordOf (formatP b) (.push (fieldByte (formatP b))) :=
    .push (by rw [toNat_formatP]; omega)
  rw [hword.decode_eq, hfield]

theorem decode_formatL (len : BitVec 12) : decode (formatL len) = .ok (.setll len) := by
  have hfield : fieldLen (formatL len) = len := BitVec.extractLsb'_append_eq_right
  have hword : WordOf (formatL len) (.setll (fieldLen (formatL len))) :=
    .setll (by rw [toNat_formatL]; omega)
  rw [hword.decode_eq, hfield]

theorem decode_formatS (sel : BitVec 1) (b : Byte) : decode (formatS sel b) = .ok (.setsep sel b) := by
  have hbyte : fieldByte (formatS sel b) = b := BitVec.extractLsb'_append_eq_right
  have hsel : fieldSel (formatS sel b) = sel := by
    apply BitVec.eq_of_toNat_eq
    rw [toNat_fieldSel, toNat_formatS]
    omega
  have hword : WordOf (formatS sel b) (.setsep (fieldSel (formatS sel b)) (fieldByte (formatS sel b))) :=
    .setsep (by rw [toNat_formatS]; omega)
  rw [hword.decode_eq, hsel, hbyte]

/-- Settles O2: the three formats with operands at every value; the other commands are one word each. -/
theorem decodeOfEncode : Obligations.DecodeOfEncode := by
  intro i
  cases i with
  | push b => exact decode_formatP b
  | setll len => exact decode_formatL len
  | setsep sel b => exact decode_formatS sel b
  | _ => rfl

/-- Settles O3: in each row of the opcode map the range fixes the bits outside the operand fields. -/
theorem encodeOfDecode : Obligations.EncodeOfDecode := by
  intro w i h
  apply BitVec.eq_of_toNat_eq
  cases WordOf.of_decode h with
  | openRow hrange =>
    rw [toNat_encode_openOf, toNat_fieldDirMode]
    omega
  | push hrange =>
    rw [encode, toNat_formatP, toNat_fieldByte]
    omega
  | flush hrange => exact hrange.symm
  | setll hrange =>
    rw [encode, toNat_formatL, toNat_fieldLen]
    omega
  | setsep hrange =>
    rw [encode, toNat_formatS, toNat_fieldSel, toNat_fieldByte]
    omega

/-- Settles O1: six of the words are those the encoder writes for their commands, the last is outside the ranges. -/
theorem sampleWordsDecode : Obligations.SampleWordsDecode :=
  ⟨decodeOfEncode .openEB32, decodeOfEncode .openDRsvd5, decodeOfEncode (.push 0x54), decodeOfEncode .flush,
    decodeOfEncode (.setll 76), decodeOfEncode (.setsep 1 0x0A), (decode_eq_error_iff 0x3001).mpr (by decide)⟩

/-! ### Illegal words (R87) -/

/-- A step on a word that is no command records the error and takes the word off the port. -/
theorem step_of_illegal {s : State} {w : CommandWord} {rest : List PortEvent}
    (hport : s.port = .command w :: rest) (hdecode : decode w = .error .illegalCommand) :
    step s = .next (execIllegal { s with port := rest }) := by
  unfold step State.nextEvent
  rw [hport]
  dsimp only
  rw [hdecode]

/-- The ranges of the opcode map as numbers; `inLegalRange` of a word is this of its number. -/
abbrev legalNumber (n : Nat) : Prop :=
  (0x1000 ≤ n ∧ n ≤ 0x100F) ∨ (0x2000 ≤ n ∧ n ≤ 0x20FF) ∨ n = 0x3000 ∨ (0x4000 ≤ n ∧ n ≤ 0x4FFF) ∨
    (0x5000 ≤ n ∧ n ≤ 0x51FF)

theorem inLegalRange_ofNat_iff {n : Nat} (h : n < 65536) : inLegalRange (BitVec.ofNat 16 n) ↔ legalNumber n := by
  have hnumber : (BitVec.ofNat 16 n).toNat = n := Nat.mod_eq_of_lt h
  rw [inLegalRange, hnumber]

/-- How many numbers below `n` are outside the ranges. -/
def illegalBelow (n : Nat) : Nat := Nat.count (fun k => ¬ legalNumber k) n

theorem illegalBelow_of_outside {a b : Nat} (hab : a ≤ b) (h : ∀ k, a ≤ k → k < b → ¬ legalNumber k) :
    illegalBelow b = illegalBelow a + (b - a) := by
  obtain ⟨n, rfl⟩ := Nat.exists_eq_add_of_le hab
  rw [illegalBelow, Nat.count_add, Nat.count_of_forall fun k hk => h (a + k) (by omega) (by omega),
    Nat.add_sub_cancel_left, illegalBelow]

theorem illegalBelow_of_inside {a b : Nat} (hab : a ≤ b) (h : ∀ k, a ≤ k → k < b → legalNumber k) :
    illegalBelow b = illegalBelow a := by
  obtain ⟨n, rfl⟩ := Nat.exists_eq_add_of_le hab
  rw [illegalBelow, Nat.count_add,
    Nat.count_of_forall_not fun k hk => not_not_intro (h (a + k) (by omega) (by omega)), Nat.add_zero, illegalBelow]

/-- Counting up through the opcode map, from each end of a range to the next. -/
theorem illegalBelow_all_words : illegalBelow 65536 = 60655 := by
  have hzero : illegalBelow 0 = 0 := Nat.count_zero _
  have hopen := illegalBelow_of_outside (a := 0) (b := 0x1000) (by omega) (by omega)
  have hopen' := illegalBelow_of_inside (a := 0x1000) (b := 0x1010) (by omega) (by omega)
  have hpush := illegalBelow_of_outside (a := 0x1010) (b := 0x2000) (by omega) (by omega)
  have hpush' := illegalBelow_of_inside (a := 0x2000) (b := 0x2100) (by omega) (by omega)
  have hflush := illegalBelow_of_outside (a := 0x2100) (b := 0x3000) (by omega) (by omega)
  have hflush' := illegalBelow_of_inside (a := 0x3000) (b := 0x3001) (by omega) (by omega)
  have hset := illegalBelow_of_outside (a := 0x3001) (b := 0x4000) (by omega) (by omega)
  have hset' := illegalBelow_of_inside (a := 0x4000) (b := 0x5200) (by omega) (by omega)
  have hrest := illegalBelow_of_outside (a := 0x5200) (b := 65536) (by omega) (by omega)
  omega

/-- The words the decoder refuses, as a list, are as many as the numbers outside the ranges. -/
theorem length_filter_illegal_words :
    ((List.range 65536).filter fun w =>
      decide (decode (BitVec.ofNat 16 w) = .error .illegalCommand)).length = illegalBelow 65536 := by
  unfold illegalBelow Nat.count
  rw [List.countP_eq_length_filter]
  refine congrArg List.length (List.filter_congr fun n hn => ?_)
  simp only [decode_eq_error_iff, inLegalRange_ofNat_iff (List.mem_range.mp hn)]

/-- Settles O4: the opcode map, a step on a word outside it, and the number of those words. -/
theorem illegalWordsRefused : Obligations.IllegalWordsRefused :=
  ⟨exists_decode_eq_ok_iff,
    fun _ w _ hport hillegal => step_of_illegal hport ((decode_eq_error_iff w).mpr hillegal),
    length_filter_illegal_words.trans illegalBelow_all_words⟩

end Sys2Proof.Machine
end

section
/-! PROOFS. The alphabets (30_encoding.md part B): each inverse map said once as the codes of the characters it
finds, the forward maps against it, and the units from 0x80 up, which no alphabet holds. -/

namespace Sys2Proof.Machine

theorem toNat_unit {v : Nat} (h : v < 256) : (unit v).toNat = v := Nat.mod_eq_of_lt h

theorem eq_unit_iff {c : Byte} {v : Nat} (h : v < 256) : c = unit v ↔ c.toNat = v := by
  rw [← BitVec.toNat_inj, toNat_unit h]

/-! ### Digits of the radix modes (R92) -/

theorem digitChar_of_lt_ten (hexCase : HexCase) {d : Nat} (h : d < 10) : digitChar hexCase d = unit (0x30 + d) :=
  if_pos h

theorem digitChar_upper {d : Nat} (h : 10 ≤ d) : digitChar .upper d = unit (0x41 + (d - 10)) :=
  if_neg (Nat.not_lt.mpr h)

theorem digitChar_lower {d : Nat} (h : 10 ≤ d) : digitChar .lower d = unit (0x61 + (d - 10)) :=
  if_neg (Nat.not_lt.mpr h)

theorem digitValue_eq_some_iff (c : Byte) (d : Nat) :
    digitValue c = some d ↔
      (d < 10 ∧ c.toNat = 0x30 + d) ∨ (10 ≤ d ∧ d < 16 ∧ c.toNat = 0x41 + (d - 10)) ∨
        (10 ≤ d ∧ d < 16 ∧ c.toNat = 0x61 + (d - 10)) := by
  unfold digitValue
  dsimp only
  split_ifs
  · rw [Option.some_inj]
    omega
  · rw [Option.some_inj]
    omega
  · rw [Option.some_inj]
    omega
  · exact iff_of_false nofun (by omega)

theorem digitValue_digitChar (hexCase : HexCase) {d : Nat} (h : d < 16) :
    digitValue (digitChar hexCase d) = some d := by
  rw [digitValue_eq_some_iff]
  by_cases hd : d < 10
  · exact .inl ⟨hd, by rw [digitChar_of_lt_ten _ hd, toNat_unit (by omega)]⟩
  · have hten : 10 ≤ d := Nat.not_lt.mp hd
    cases hexCase with
    | upper => exact .inr (.inl ⟨hten, h, by rw [digitChar_upper hten, toNat_unit (by omega)]⟩)
    | lower => exact .inr (.inr ⟨hten, h, by rw [digitChar_lower hten, toNat_unit (by omega)]⟩)

theorem eq_digitChar_of_digitValue {c : Byte} {d : Nat} (h : digitValue c = some d) :
    c = digitChar .upper d ∨ c = digitChar .lower d := by
  obtain ⟨hd, hc⟩ | ⟨hten, hd, hc⟩ | ⟨hten, hd, hc⟩ := (digitValue_eq_some_iff c d).mp h
  · rw [digitChar_of_lt_ten _ hd]
    exact .inl ((eq_unit_iff (by omega)).mpr hc)
  · rw [digitChar_upper hten]
    exact .inl ((eq_unit_iff (by omega)).mpr hc)
  · rw [digitChar_lower hten]
    exact .inr ((eq_unit_iff (by omega)).mpr hc)

/-! ### TAB32 (R93) -/

theorem tab32_of_lt {i : Nat} (h : i < 26) : tab32 i = unit (0x41 + i) := if_pos h

theorem tab32_of_le {i : Nat} (h : 26 ≤ i) : tab32 i = unit (0x32 + (i - 26)) := if_neg (Nat.not_lt.mpr h)

theorem idx32_eq_some_iff (c : Byte) (i : Nat) :
    idx32 c = some i ↔
      (i < 26 ∧ c.toNat = 0x41 + i) ∨ (26 ≤ i ∧ i < 32 ∧ c.toNat = 0x32 + (i - 26)) := by
  unfold idx32
  dsimp only
  split_ifs
  · rw [Option.some_inj]
    omega
  · rw [Option.some_inj]
    omega
  · exact iff_of_false nofun (by omega)

theorem idx32_eq_some_iff_tab32 (c : Byte) (i : Nat) : idx32 c = some i ↔ i < 32 ∧ tab32 i = c := by
  rw [idx32_eq_some_iff, eq_comm (a := tab32 i)]
  by_cases hi : i < 26
  · rw [tab32_of_lt hi, eq_unit_iff (by omega)]
    omega
  · by_cases hi' : i < 32
    · rw [tab32_of_le (by omega), eq_unit_iff (by omega)]
      omega
    · omega

/-! ### The Base85 digits (R94) -/

theorem value85_eq_some_iff (c : Byte) (d : Nat) : value85 c = some d ↔ d < 85 ∧ c.toNat = 33 + d := by
  unfold value85
  split_ifs
  · rw [Option.some_inj]
    omega
  · exact iff_of_false nofun (by omega)

theorem value85_eq_some_iff_char85 (c : Byte) (d : Nat) : value85 c = some d ↔ d < 85 ∧ char85 d = c := by
  rw [value85_eq_some_iff, eq_comm (a := char85 d)]
  exact and_congr_right fun hd => (eq_unit_iff (by omega)).symm

/-! ### TAB91 (R95) -/

/-- The 62 entries of TAB91 that the parameter leaves alone: A-Z, a-z, 0-9. -/
def alphanumerics91 : List Byte :=
  (List.range 26).map (fun i => unit (0x41 + i)) ++ (List.range 26).map (fun i => unit (0x61 + i)) ++
    (List.range 10).map (fun i => unit (0x30 + i))

theorem alphabet91_eq_append (cfg : Config) : alphabet91 cfg = alphanumerics91 ++ cfg.b91Punct.toList := rfl

theorem alphanumerics91_length : alphanumerics91.length = 62 := rfl

theorem alphanumerics91_nodup : alphanumerics91.Nodup := by
  have hcodes : (alphanumerics91.map BitVec.toNat).Nodup := by decide
  exact hcodes.of_map

theorem toNat_of_mem_alphanumerics91 {c : Byte} (h : c ∈ alphanumerics91) :
    (0x41 ≤ c.toNat ∧ c.toNat ≤ 0x5A) ∨ (0x61 ≤ c.toNat ∧ c.toNat ≤ 0x7A) ∨ (0x30 ≤ c.toNat ∧ c.toNat ≤ 0x39) := by
  simp only [alphanumerics91, List.mem_append, List.mem_map, List.mem_range] at h
  obtain (⟨i, hi, rfl⟩ | ⟨i, hi, rfl⟩) | ⟨i, hi, rfl⟩ := h
  all_goals rw [toNat_unit (by omega)]
  all_goals omega

theorem isAlphanumeric_of_mem_alphanumerics91 {c : Byte} (h : c ∈ alphanumerics91) : isAlphanumeric c = true := by
  have hcode := toNat_of_mem_alphanumerics91 h
  simpa [isAlphanumeric, or_assoc] using hcode

theorem tab91_of_lt_62 (cfg : Config) {i : Nat} (h : i < 62) : tab91 cfg i = alphanumerics91.getD i 0 :=
  List.getD_append _ _ _ _ h

theorem getD_map_range (f : Nat → Byte) {n i : Nat} (h : i < n) : ((List.range n).map f).getD i 0 = f i := by
  simp [List.getD, h]

theorem tab91_upper (cfg : Config) {i : Nat} (h : i < 26) : tab91 cfg i = unit (0x41 + i) := by
  rw [tab91_of_lt_62 cfg (by omega), alphanumerics91, List.append_assoc, List.getD_append _ _ _ _ (by simpa using h),
    getD_map_range _ h]

theorem tab91_lower (cfg : Config) {i : Nat} (h : 26 ≤ i) (h' : i < 52) : tab91 cfg i = unit (0x61 + (i - 26)) := by
  rw [tab91_of_lt_62 cfg (by omega), alphanumerics91, List.append_assoc,
    List.getD_append_right _ _ _ _ (by simpa using h), List.getD_append _ _ _ _ (by simp; omega),
    List.length_map, List.length_range, getD_map_range _ (by omega)]

theorem tab91_digit (cfg : Config) {i : Nat} (h : 52 ≤ i) (h' : i < 62) : tab91 cfg i = unit (0x30 + (i - 52)) := by
  rw [tab91_of_lt_62 cfg h', alphanumerics91, List.getD_append_right _ _ _ _ (by simpa using h),
    List.length_append, List.length_map, List.length_map, List.length_range,
    getD_map_range _ (by omega)]

theorem tab91_punct (cfg : Config) (k : Fin 29) : tab91 cfg (62 + k.val) = cfg.b91Punct[k] := by
  rw [tab91, alphabet91_eq_append, List.getD_append_right _ _ _ _ (by simp [alphanumerics91_length])]
  simp [alphanumerics91_length]

theorem tab91_eq_getElem (cfg : Config) {i : Nat} (h : i < (alphabet91 cfg).length) :
    tab91 cfg i = (alphabet91 cfg)[i] := List.getD_eq_getElem _ _ h

/-- What 00_scope.md R5 asks of B91PUNCT for TAB91 to have no entry twice. -/
theorem punct_of_wf {cfg : Config} (h : cfg.wf = true) :
    cfg.b91Punct.toList.Nodup ∧ ∀ c ∈ cfg.b91Punct.toList, isAlphanumeric c = false := by
  simp only [Config.wf, Bool.and_eq_true, Config.punctDistinct, Config.punctNotAlphanumeric, decide_eq_true_eq,
    List.all_eq_true, Bool.not_eq_true'] at h
  obtain ⟨⟨⟨⟨⟨⟨hdistinct, -⟩, hother⟩, -⟩, -⟩, -⟩, -⟩ := h
  exact ⟨hdistinct, hother⟩

theorem alphabet91_nodup {cfg : Config} (h : cfg.wf = true) : (alphabet91 cfg).Nodup := by
  obtain ⟨hdistinct, hother⟩ := punct_of_wf h
  rw [alphabet91_eq_append, List.nodup_append']
  refine ⟨alphanumerics91_nodup, hdistinct, fun c hc hpunct => ?_⟩
  exact Bool.false_ne_true ((hother c hpunct).symm.trans (isAlphanumeric_of_mem_alphanumerics91 hc))

theorem idx91_tab91 {cfg : Config} (hwf : cfg.wf = true) {i : Nat} (h : i < 91) :
    idx91 cfg (tab91 cfg i) = some i := by
  have hlt : i < (alphabet91 cfg).length := by rwa [alphabet91_length]
  rw [tab91_eq_getElem cfg hlt, idx91, List.idxOf?_eq_some_iff]
  exact ⟨hlt, rfl, fun j hj hsame => hj.ne ((alphabet91_nodup hwf).getElem_inj_iff.mp hsame)⟩

theorem tab91_of_idx91 {cfg : Config} {c : Byte} {i : Nat} (h : idx91 cfg c = some i) : tab91 cfg i = c := by
  obtain ⟨hlt, hc, -⟩ := List.idxOf?_eq_some_iff.mp h
  rw [tab91_eq_getElem cfg hlt, hc]

/-- Settles O44, an alphabet at a time: the forward map by its equations, both directions by what the inverse map
finds. -/
theorem alphabetsAreBijections : Obligations.AlphabetsAreBijections :=
  ⟨fun hexCase _ => digitChar_of_lt_ten hexCase,
    fun _ hten _ => ⟨digitChar_upper hten, digitChar_lower hten⟩,
    fun hexCase _ => digitValue_digitChar hexCase,
    fun c d h => ⟨digitValue_lt c d h, eq_digitChar_of_digitValue h⟩,
    fun _ => tab32_of_lt,
    fun _ hlow _ => tab32_of_le hlow,
    fun i hi => (idx32_eq_some_iff_tab32 _ i).mpr ⟨hi, rfl⟩,
    fun c i => (idx32_eq_some_iff_tab32 c i).mp,
    fun _ _ => rfl,
    fun d hd => (value85_eq_some_iff_char85 _ d).mpr ⟨hd, rfl⟩,
    fun c d => (value85_eq_some_iff_char85 c d).mp,
    fun cfg _ => tab91_upper cfg,
    fun cfg _ => tab91_lower cfg,
    fun cfg _ => tab91_digit cfg,
    tab91_punct,
    fun _ _ hwf => idx91_tab91 hwf,
    fun cfg c i h => ⟨idx91_lt cfg c i h, tab91_of_idx91 h⟩⟩

/-! ### The units from 0x80 up (R98) -/

section HighUnit

variable {c : Byte} (hhigh : 0x80 ≤ c.toNat)
include hhigh

theorem digitValue_of_high : digitValue c = none := by
  rw [Option.eq_none_iff_forall_ne_some]
  intro d h
  rw [digitValue_eq_some_iff] at h
  omega

theorem idx32_of_high : idx32 c = none := by
  rw [Option.eq_none_iff_forall_ne_some]
  intro i h
  rw [idx32_eq_some_iff] at h
  omega

theorem value85_of_high : value85 c = none := by
  rw [Option.eq_none_iff_forall_ne_some]
  intro d h
  rw [value85_eq_some_iff] at h
  omega

theorem not_mem_of_high {cs : List Byte} (hascii : ∀ x ∈ cs, x.toNat < 0x80) : c ∉ cs :=
  fun hc => Nat.not_lt.mpr hhigh (hascii c hc)

theorem idx91_of_high {cfg : Config} (hpunct : ∀ x ∈ cfg.b91Punct.toList, x.toNat < 0x80) :
    idx91 cfg c = none := by
  rw [idx91, List.idxOf?_eq_none_iff, alphabet91_eq_append, List.mem_append, not_or]
  refine ⟨fun hc => ?_, not_mem_of_high hhigh hpunct⟩
  have hcode := toNat_of_mem_alphanumerics91 hc
  omega

theorem skippable_of_high {cfg : Config} {m : Mode} (hextra : ∀ x ∈ skipExtra cfg m, x.toNat < 0x80) :
    skippable cfg m c = false := by
  have hcommon : c ∉ commonSkip := not_mem_of_high hhigh (by decide)
  have hmore : c ∉ skipExtra cfg m := not_mem_of_high hhigh hextra
  simp [skippable, hcommon, hmore]

/-- The special characters `=` and `z` are ASCII, so the mode's inverse map decides. -/
theorem pushDecode_of_high {s : State} (hpunct : ∀ x ∈ s.cfg.b91Punct.toList, x.toNat < 0x80) :
    pushDecode c s = .error ⟨.invalidSymbol, c⟩ := by
  have hradix (r w : Nat) : radixDecode r w c s = .error ⟨.invalidSymbol, c⟩ := by
    rw [radixDecode, digitValue_of_high hhigh]
  unfold pushDecode
  cases s.mode with
  | base02 | base08 | base10 | base16 => exact hradix _ _
  | base32 =>
    have hpad : c ≠ padChar := by rintro rfl; exact absurd hhigh (by decide)
    dsimp only
    rw [pushDecodeBase32, if_neg hpad, idx32_of_high hhigh]
  | base85 =>
    have hz : c ≠ zChar := by rintro rfl; exact absurd hhigh (by decide)
    dsimp only
    rw [pushDecodeBase85, if_neg hz, value85_of_high hhigh]
  | base91 =>
    dsimp only
    rw [pushDecodeBase91, idx91_of_high hhigh hpunct]

end HighUnit

/-- A PUSH during a decode goes through the filter to the mode's rule (40_control.md R114). -/
theorem exec_push_of_decoding {s : State} {m : Mode} (hruns : s.runs .decode m) (c : Byte) :
    exec (.push c) s = .next (pushFiltered c s) := by
  obtain ⟨hphase, hdir, -⟩ := hruns
  show Host.Outcome.next (insideActive s _) = _
  rw [insideActive_of_active _ _ hphase, hdir]

/-- A character that is not dropped is settled by the mode's rule (40_control.md R114, R119). -/
theorem pushFiltered_of_not_dropped {c : Byte} {s : State} (hpad : s.mode = .base32 → s.padseen = false)
    (hskip : skippable s.cfg s.mode c = false) : pushFiltered c s = settle s (pushDecode c s) := by
  have hreading : ¬ (s.mode = .base32 ∧ s.padseen = true) :=
    fun ⟨hmode, hseen⟩ => Bool.false_ne_true ((hpad hmode).symm.trans hseen)
  rw [pushFiltered, if_neg hreading, hskip]
  rfl

/-- Settles O36: such a unit passes the skip filter, and the rule of every mode finds no symbol. -/
theorem highUnitsFault : Obligations.HighUnitsFault := by
  intro c s m hruns hpad hextra hpunct hhigh
  have ⟨_, _, hmode⟩ := hruns
  subst hmode
  rw [exec_push_of_decoding hruns, pushFiltered_of_not_dropped hpad (skippable_of_high hhigh hextra),
    pushDecode_of_high hhigh hpunct]
  rfl

end Sys2Proof.Machine
end

section
/-! PROOFS. Control (40_control.md): the emission primitives and the skip filter, OPEN, SETLL and SETSEP, which
command is allowed in which PHASE, and how PHASE moves at each step. -/

namespace Sys2Proof.Machine

/-! ### Emission (R120, R121) and the skip filter (R118) -/

theorem emitText_of_llen_zero {s : State} (h : s.llen = 0) (c : Byte) :
    s.emitText c = { s with out := s.out ++ [c] } := if_pos h

theorem emitText_of_line_open {s : State} (h : s.llen ≠ 0) (hlast : s.lpos + 1 ≠ s.llen) (c : Byte) :
    s.emitText c = { s with out := s.out ++ [c], lpos := s.lpos + 1 } := by
  rw [State.emitText, if_neg h, if_neg hlast]

theorem emitText_of_line_full {s : State} (h : s.llen ≠ 0) (hlast : s.lpos + 1 = s.llen) (c : Byte) :
    s.emitText c = { s with out := s.out ++ (c :: s.separator), lpos := 0 } := by
  rw [State.emitText, if_neg h, if_pos hlast, List.append_assoc]
  rfl

theorem separator_of_two {s : State} (h : s.seplen = 2) : s.separator = [s.sep0, s.sep1] := if_pos h

theorem separator_of_not_two {s : State} (h : s.seplen ≠ 2) : s.separator = [s.sep0] := if_neg h

/-- Settles O21: the three branches of the framer, the last one for both lengths of the separator. -/
theorem emissionPrimitives : Obligations.EmissionPrimitives := fun _ c =>
  ⟨fun h => emitText_of_llen_zero h c,
    fun h hlast => emitText_of_line_open h hlast c,
    fun h hlast htwo => separator_of_two htwo ▸ emitText_of_line_full h hlast c,
    fun h hlast htwo => separator_of_not_two htwo ▸ emitText_of_line_full h hlast c,
    rfl⟩

theorem skippable_iff (cfg : Config) (m : Mode) (c : Byte) :
    skippable cfg m c = true ↔ c ∈ commonSkip ∨ c ∈ skipExtra cfg m := by
  simp [skippable]

/-- A skippable character is dropped, whether padding has been read before it or not (R114, R119). -/
theorem pushFiltered_of_skippable {c : Byte} {s : State} (h : skippable s.cfg s.mode c = true) :
    pushFiltered c s = s := by
  rw [pushFiltered, if_pos h, ite_self]

/-- Settles O25: the skip set as a list of characters, the two defaults, and the filter in front of the rules. -/
theorem skipFilter : Obligations.SkipFilter := by
  refine ⟨skippable_iff, by decide, by decide, fun _ m c hruns hskip => ?_⟩
  have ⟨_, _, hmode⟩ := hruns
  rw [exec_push_of_decoding hruns, pushFiltered_of_skippable (hmode ▸ hskip)]

/-! ### OPEN, SETLL and SETSEP (R111 to R113) -/

theorem openCommand_of_mode {d : Dir} {code : BitVec 3} {m : Mode} {s : State} (hcode : Mode.ofCode code = some m)
    (hphase : s.phase ≠ .active) : openCommand d code s = startInvocation d m s := by
  rw [openCommand, outsideActive_of_not_active _ _ hphase, hcode]

theorem openCommand_of_reserved {d : Dir} {code : BitVec 3} {s : State} (hcode : Mode.ofCode code = none)
    (hphase : s.phase ≠ .active) : openCommand d code s = raiseCmdError .reservedMode s := by
  rw [openCommand, outsideActive_of_not_active _ _ hphase, hcode]

/-- A row of OPEN starts the invocation it names. -/
theorem exec_openRow {i : Instr} {d : Dir} {m : Mode} (hrow : (i, d, m) ∈ openRows) {s : State}
    (hphase : s.phase ≠ .active) : exec i s = .next (startInvocation d m s) := by
  simp only [openRows, List.mem_cons, Prod.mk.injEq, List.not_mem_nil, or_false] at hrow
  rcases hrow with h | h | h | h | h | h | h | h | h | h | h | h | h | h
  all_goals
    obtain ⟨rfl, rfl, rfl⟩ := h
    exact congrArg Host.Outcome.next (openCommand_of_mode rfl hphase)

/-- Settles O11: the rows that name a mode, the two reserved ones, and all sixteen in ACTIVE. -/
theorem openCommandResult : Obligations.OpenCommandResult := by
  refine ⟨fun s i d m hrow hphase => exec_openRow hrow hphase, fun s hphase => ⟨?_, ?_⟩, fun s i hi hphase => ?_⟩
  · exact congrArg Host.Outcome.next (openCommand_of_reserved rfl hphase)
  · exact congrArg Host.Outcome.next (openCommand_of_reserved rfl hphase)
  · have hrefused (d : Dir) (code : BitVec 3) : openCommand d code s = raiseCmdError .badSequence s :=
      outsideActive_of_active _ _ hphase
    fin_cases hi
    all_goals exact congrArg Host.Outcome.next (hrefused _ _)

/-- Settles O12. -/
theorem setllResult : Obligations.SetllResult := fun _ _ =>
  ⟨fun hphase => congrArg Host.Outcome.next (outsideActive_of_not_active _ _ hphase),
    fun hphase => congrArg Host.Outcome.next (outsideActive_of_active _ _ hphase)⟩

/-- Settles O13: the two values of `sel` outside ACTIVE, and the refusal of both in ACTIVE. -/
theorem setsepResult : Obligations.SetsepResult := fun _ _ =>
  ⟨fun hphase => congrArg Host.Outcome.next (outsideActive_of_not_active _ _ hphase),
    fun hphase => congrArg Host.Outcome.next (outsideActive_of_not_active _ _ hphase),
    fun hphase _ => congrArg Host.Outcome.next (outsideActive_of_active _ _ hphase)⟩

/-! ### The sequencing table (R116) -/

/-- The rows of OPEN, reserved or not, are allowed in every PHASE but ACTIVE. -/
theorem allowedIn_open_of_not_active {i : Instr} (hi : i ∈ openRows.map Prod.fst ++ reservedRows) {p : Phase}
    (hphase : p ≠ .active) : allowedIn i p = true := by
  have hrows : ∀ i ∈ openRows.map Prod.fst ++ reservedRows, ∀ q ∈ [Phase.idle, .done, .fault],
      allowedIn i q = true := by decide
  exact hrows i hi p (by cases p <;> simp_all)

theorem mem_openRows_fst {i : Instr} {d : Dir} {m : Mode} (h : (i, d, m) ∈ openRows) :
    i ∈ openRows.map Prod.fst := List.mem_map.mpr ⟨_, h, rfl⟩

theorem DataEffect.errorRecord_eq {s t : State} (h : DataEffect s t) : t.cmderr = s.cmderr ∧ t.cecode = s.cecode := by
  obtain ⟨units, ht⟩ := h.eq_update
  rw [ht]
  exact ⟨rfl, rfl⟩

/-- Where the table says no, a command is refused and does nothing else; where it says yes, only a reserved row of
OPEN touches the command-error record. -/
theorem CommandEffect.refused_or_allowed {i : Instr} {s t : State} (h : CommandEffect s i t) :
    (allowedIn i s.phase = false ∧ t = raiseCmdError .badSequence s) ∨
      (allowedIn i s.phase = true ∧ (i ∉ reservedRows → t.cmderr = s.cmderr ∧ t.cecode = s.cecode)) := by
  cases h with
  | badSequence hno => exact .inl ⟨hno, rfl⟩
  | reservedMode hrow hphase =>
    exact .inr ⟨allowedIn_open_of_not_active (List.mem_append_right _ hrow) hphase, fun hnot => absurd hrow hnot⟩
  | opened hrow hphase =>
    have hi := List.mem_append_left reservedRows (mem_openRows_fst hrow)
    exact .inr ⟨allowedIn_open_of_not_active hi hphase, fun _ => ⟨rfl, rfl⟩⟩
  | lineLength _ hphase | firstSeparator _ hphase | secondSeparator _ hphase =>
    refine .inr ⟨?_, fun _ => ⟨rfl, rfl⟩⟩
    cases hp : s.phase with
    | active => exact absurd hp hphase
    | idle | done | fault => rfl
  | pushed hphase hdata | flushed hphase hdata => exact .inr ⟨by rw [hphase]; rfl, fun _ => hdata.errorRecord_eq⟩
  | faulted hphase _ hi _ =>
    refine .inr ⟨?_, fun _ => ⟨rfl, rfl⟩⟩
    rw [hphase]
    obtain ⟨b, rfl⟩ | rfl := hi <;> rfl

/-- Settles O14: each command has one of its effects, and each effect is on its side of the table. -/
theorem sequencingTable : Obligations.SequencingTable := by
  intro i s
  obtain ⟨t, hexec, heffect⟩ := exec_effect i s
  obtain ⟨hno, rfl⟩ | ⟨hyes, hrecord⟩ := heffect.refused_or_allowed
  · exact ⟨fun _ => hexec, fun hyes => absurd (hno.symm.trans hyes) Bool.false_ne_true⟩
  · exact ⟨fun hno => absurd (hno.symm.trans hyes) Bool.false_ne_true, fun _ hnot => ⟨t, hexec, hrecord hnot⟩⟩

/-! ### PHASE (R117) -/

/-- The PHASE that a command may leave behind in an invocation of direction `d` (R117). -/
def PhaseInInvocation (d : Dir) (i : Instr) (p : Phase) : Prop :=
  match i with
  | .push _ => p = .active ∨ (p = .fault ∧ d = .decode)
  | .flush => p = .done ∨ (p = .fault ∧ d = .decode)
  | _ => p = .active

/-- The rows of R117's table for a command `i` that takes the state `s` to PHASE `p`. -/
def PhaseAfter (s : State) (i : Instr) (p : Phase) : Prop :=
  if s.phase = .active then PhaseInInvocation s.dir i p
  else if i ∈ openRows.map Prod.fst then p = .active
  else p = s.phase

theorem PhaseAfter.of_active {s : State} {i : Instr} {p : Phase} (hphase : s.phase = .active)
    (h : PhaseInInvocation s.dir i p) : PhaseAfter s i p := by
  rwa [PhaseAfter, if_pos hphase]

theorem PhaseAfter.of_not_active {s : State} {i : Instr} (hphase : s.phase ≠ .active)
    (hi : i ∉ openRows.map Prod.fst) : PhaseAfter s i s.phase := by
  rw [PhaseAfter, if_neg hphase, if_neg hi]

/-- A refused command leaves PHASE as it was. -/
theorem PhaseAfter.of_not_allowed {s : State} {i : Instr} (hno : allowedIn i s.phase = false) :
    PhaseAfter s i s.phase := by
  by_cases hphase : s.phase = .active
  · refine .of_active hphase ?_
    rw [hphase] at hno ⊢
    cases i with
    | push b => exact .inl rfl
    | flush => nomatch hno
    | _ => rfl
  · refine .of_not_active hphase fun hi => ?_
    have hyes := allowedIn_open_of_not_active (List.mem_append_left reservedRows hi) hphase
    exact absurd (hno.symm.trans hyes) Bool.false_ne_true

theorem CommandEffect.phaseAfter {s t : State} {i : Instr} (h : CommandEffect s i t) : PhaseAfter s i t.phase := by
  cases h with
  | badSequence hno => exact .of_not_allowed hno
  | reservedMode hrow hphase =>
    have hrows : ∀ i ∈ reservedRows, i ∉ openRows.map Prod.fst := by decide
    exact .of_not_active hphase (hrows i hrow)
  | opened hrow hphase =>
    rw [PhaseAfter, if_neg hphase, if_pos (mem_openRows_fst hrow)]
    rfl
  | lineLength _ hphase | firstSeparator _ hphase | secondSeparator _ hphase =>
    exact .of_not_active hphase (by simp [openRows])
  | pushed hphase hdata => exact .of_active hphase (.inl (hdata.phase_eq.trans hphase))
  | flushed hphase => exact .of_active hphase (.inl rfl)
  | faulted hphase hdir hi =>
    refine .of_active hphase ?_
    obtain ⟨b, rfl⟩ | rfl := hi <;> exact .inr ⟨rfl, hdir⟩

/-- Settles O15: the transaction decides the row of the table, and each effect of a command is in its row. -/
theorem phaseTransitions : Obligations.PhaseTransitions := by
  intro s t hstep
  cases stepEffect_of_step hstep with
  | waited hport => rw [hport]
  | wasReset hport =>
    rw [hport]
    rfl
  | illegal hport hdecode =>
    rw [hport]
    dsimp only
    rw [hdecode]
    rfl
  | ran hport hdecode heffect =>
    rw [hport]
    dsimp only
    rw [hdecode]
    exact heffect.phaseAfter

/-- Settles O5. -/
theorem stepRunsDecodedCommand : Obligations.StepRunsDecodedCommand :=
  fun _ _ _ _ hport hdecode => step_of_command hport hdecode

end Sys2Proof.Machine
end

section
/-! PROOFS. The encoders as functions of the bit packer: which characters a PUSH and a FLUSH write and what they
leave in ACC, CNT and GCNT depends on those registers and the parameters, and on nothing of the framer
(40_control.md R123: the characters themselves do not depend on L). -/

namespace Sys2Proof.Machine

/-! ### The bit packer and what a rule writes -/

/-- The registers of the bit packer: ACC, CNT and GCNT (10_state.md R20 to R22). -/
structure Packer where
  acc : BitVec 32
  cnt : BitVec 6
  gcnt : BitVec 3

/-- The bit packer after OPEN (40_control.md R111). -/
def Packer.empty : Packer := ⟨0, 0, 0⟩

def State.packer (s : State) : Packer := ⟨s.acc, s.cnt, s.gcnt⟩

def State.withPacker (s : State) (k : Packer) : State := { s with acc := k.acc, cnt := k.cnt, gcnt := k.gcnt }

/-- What an encode rule does: the characters it hands to the framer, and the bit packer it leaves. -/
structure Emission where
  units : List Byte
  left : Packer

/-- The characters go through the framer, and the bit packer is written. -/
def State.emit (s : State) (e : Emission) : State := (s.emitTexts e.units).withPacker e.left

/-- One emission and then another. -/
def Emission.append (e f : Emission) : Emission := ⟨e.units ++ f.units, f.left⟩

@[simp] theorem emit_packer (s : State) (e : Emission) : (s.emit e).packer = e.left := rfl

@[simp] theorem emit_cfg (s : State) (e : Emission) : (s.emit e).cfg = s.cfg := emitTexts_cfg s e.units

@[simp] theorem emit_mode (s : State) (e : Emission) : (s.emit e).mode = s.mode := emitTexts_mode s e.units

@[simp] theorem emit_dir (s : State) (e : Emission) : (s.emit e).dir = s.dir := emitTexts_dir s e.units

@[simp] theorem emit_phase (s : State) (e : Emission) : (s.emit e).phase = s.phase := emitTexts_phase s e.units

theorem emit_runs {s : State} {d : Dir} {m : Mode} (h : s.runs d m) (e : Emission) : (s.emit e).runs d m := by
  rwa [State.runs, emit_phase, emit_dir, emit_mode]

theorem withPacker_emitTexts (s : State) (k : Packer) (cs : List Byte) :
    (s.withPacker k).emitTexts cs = (s.emitTexts cs).withPacker k :=
  emitTexts_working s cs k.acc k.cnt k.gcnt

theorem withPacker_emit (s : State) (k : Packer) (e : Emission) : (s.withPacker k).emit e = s.emit e := by
  rw [State.emit, withPacker_emitTexts]
  rfl

theorem emit_emit (s : State) (e f : Emission) : (s.emit e).emit f = s.emit (e.append f) := by
  show ((s.emitTexts e.units).withPacker e.left).emit f = _
  rw [withPacker_emit, State.emit, ← emitTexts_append]
  rfl

/-! An update of some registers of the bit packer after `EmitText`, as an emission. -/

theorem emitTexts_eq_emit (s : State) (cs : List Byte) : s.emitTexts cs = s.emit ⟨cs, s.packer⟩ := by
  unfold State.packer
  rw [← emitTexts_acc s cs, ← emitTexts_cnt s cs, ← emitTexts_gcnt s cs]
  rfl

theorem emitTexts_acc_gcnt_eq_emit (s : State) (cs : List Byte) (acc : BitVec 32) (gcnt : BitVec 3) :
    { s.emitTexts cs with acc := acc, gcnt := gcnt } = s.emit ⟨cs, ⟨acc, s.cnt, gcnt⟩⟩ := by
  rw [← emitTexts_cnt s cs]
  rfl

theorem emitTexts_acc_cnt_eq_emit (s : State) (cs : List Byte) (acc : BitVec 32) (cnt : BitVec 6) :
    { s.emitTexts cs with acc := acc, cnt := cnt } = s.emit ⟨cs, ⟨acc, cnt, s.gcnt⟩⟩ := by
  rw [← emitTexts_gcnt s cs]
  rfl

/-! ### Base32 (42_base32.md R161, R163) -/

/-- The groups of five that `cnt` valid bits of `acc` hold, the most significant first. -/
def symbols32 (acc cnt : Nat) : List Byte :=
  (List.range (cnt / 5)).map fun j => tab32 ((acc >>> (cnt - 5 * (j + 1))) &&& 31)

theorem symbols32_of_lt {cnt : Nat} (h : cnt < 5) (acc : Nat) : symbols32 acc cnt = [] := by
  rw [symbols32, Nat.div_eq_of_lt h]
  rfl

theorem symbols32_of_le {cnt : Nat} (h : 5 ≤ cnt) (acc : Nat) :
    symbols32 acc cnt = tab32 ((acc >>> (cnt - 5)) &&& 31) :: symbols32 acc (cnt - 5) := by
  have hdiv : cnt / 5 = (cnt - 5) / 5 + 1 := by omega
  have hrest (j : Nat) : cnt - 5 * (j + 1 + 1) = cnt - 5 - 5 * (j + 1) := by omega
  rw [symbols32, hdiv, List.range_succ_eq_map, List.map_cons, List.map_map]
  simp only [Function.comp_def, Nat.succ_eq_add_one, hrest]
  rfl

theorem drainSymbols32_eq_symbols (fuel : Nat) (s : State) (h : s.cnt.toNat ≤ fuel) :
    drainSymbols32 fuel s = s.drained32 (symbols32 s.acc.toNat s.cnt.toNat) := by
  induction fuel generalizing s with
  | zero =>
    have hfew : s.cnt.toNat < 5 := by omega
    rw [symbols32_of_lt hfew, drained32_of_lt hfew]
    rfl
  | succ fuel ih =>
    unfold drainSymbols32
    split
    · next hfive =>
      have hcnt : (s.cnt - 5).toNat = s.cnt.toNat - 5 := by bv_omega
      simp only [emitText_cnt, emitText_gcnt]
      rw [ih _ (show (s.cnt - 5).toNat ≤ fuel by omega), symbols32_of_le hfive, ← drained32_cons hfive]
      simp only [emitText_acc, hcnt]
    · next hfew =>
      have hfew : s.cnt.toNat < 5 := by omega
      rw [symbols32_of_lt hfew, drained32_of_lt hfew]

/-- PUSH of the Base32 encoder on the bit packer. -/
def encodePush32 (b : Byte) (k : Packer) : Emission :=
  let acc := BitVec.ofNat 32 (k.acc.toNat <<< 8 ||| b.toNat)
  let cnt := (k.cnt + 8).toNat
  ⟨symbols32 acc.toNat cnt,
    ⟨BitVec.ofNat 32 (acc.toNat &&& (1 <<< (cnt % 5) - 1)), BitVec.ofNat 6 (cnt % 5),
      k.gcnt + BitVec.ofNat 3 (cnt / 5)⟩⟩

theorem pushEncodeBase32_eq_emit (b : Byte) (s : State) :
    pushEncodeBase32 b s = s.emit (encodePush32 b s.packer) := by
  unfold pushEncodeBase32
  extract_lets s1 s2
  have hs2 : s2 = s1.drained32 (symbols32 s1.acc.toNat s1.cnt.toNat) := drainSymbols32_eq_symbols _ s1 le_rfl
  have hcnt : s2.cnt.toNat = s1.cnt.toNat % 5 := by
    rw [hs2]
    exact Nat.mod_eq_of_lt (by omega)
  have hacc : s2.acc = s1.acc := by
    rw [hs2]
    exact emitTexts_acc _ _
  rw [hcnt, hacc, hs2]
  have hframer := emitTexts_working s (symbols32 s1.acc.toNat s1.cnt.toNat) s1.acc s1.cnt s1.gcnt
  unfold State.drained32
  rw [show s1 = { s with acc := s1.acc, cnt := s1.cnt, gcnt := s1.gcnt } from rfl, hframer]
  rfl

/-- FLUSH of the Base32 encoder on the bit packer: the zero-filled last group, then padding. -/
def encodeFlush32 (k : Packer) : Emission :=
  if 0 < k.cnt.toNat then
    ⟨tab32 ((k.acc.toNat <<< (5 - k.cnt.toNat)) &&& 31) ::
      List.replicate ((8 - (k.gcnt + 1).toNat) % 8) padChar, Packer.empty⟩
  else ⟨List.replicate ((8 - k.gcnt.toNat) % 8) padChar, ⟨k.acc, k.cnt, 0⟩⟩

/-- The padding loop as an emission. -/
theorem padToEight_eq_emit (s : State) :
    padToEight 8 s = s.emit ⟨List.replicate ((8 - s.gcnt.toNat) % 8) padChar, ⟨s.acc, s.cnt, 0⟩⟩ := by
  rw [padToEight_eq 8 s (by omega), State.emit, State.withPacker]
  simp only [← emitTexts_acc s (List.replicate ((8 - s.gcnt.toNat) % 8) padChar),
    ← emitTexts_cnt s (List.replicate ((8 - s.gcnt.toNat) % 8) padChar)]

/-- The zero-filled last group as an emission. -/
theorem finalSymbol32_eq_emit {s : State} (h : 0 < s.cnt.toNat) :
    finalSymbol32 s =
      s.emit ⟨[tab32 ((s.acc.toNat <<< (5 - s.cnt.toNat)) &&& 31)], ⟨0, 0, s.gcnt + 1⟩⟩ := by
  rw [finalSymbol32, if_pos h]
  simp only [emitText_gcnt]
  rfl

theorem flushEncodeBase32_eq_emit (s : State) : flushEncodeBase32 s = s.emit (encodeFlush32 s.packer) := by
  unfold flushEncodeBase32 encodeFlush32
  rw [padToEight_eq_emit]
  by_cases hcnt : 0 < s.cnt.toNat
  · rw [finalSymbol32_eq_emit hcnt, emit_emit, if_pos (show 0 < s.packer.cnt.toNat from hcnt)]
    rfl
  · rw [finalSymbol32, if_neg hcnt, if_neg (show ¬ 0 < s.packer.cnt.toNat from hcnt)]
    rfl

/-! ### Base85 (43_base85.md R182, R183) -/

/-- PUSH of the Base85 encoder on the bit packer. -/
def encodePush85 (b : Byte) (k : Packer) : Emission :=
  let word := BitVec.ofNat 32 (k.acc.toNat <<< 8 ||| b.toNat)
  if k.gcnt + 1 = 4 then
    ⟨if word = 0 then [zChar] else (digits85 word.toNat).map char85, ⟨0, k.cnt, 0⟩⟩
  else ⟨[], ⟨word, k.cnt, k.gcnt + 1⟩⟩

theorem pushEncodeBase85_eq_emit (b : Byte) (s : State) :
    pushEncodeBase85 b s = s.emit (encodePush85 b s.packer) := by
  unfold pushEncodeBase85 encodePush85
  extract_lets s1 t word
  have ht : t = s1.emitTexts (if word = 0 then [zChar] else (digits85 word.toNat).map char85) :=
    (apply_ite s1.emitTexts (word = 0) [zChar] ((digits85 word.toNat).map char85)).symm
  show (if s1.gcnt = 4 then _ else _) = s.emit (if s1.gcnt = 4 then _ else _)
  split
  · rw [ht, emitTexts_acc_gcnt_eq_emit]
    exact withPacker_emit s ⟨s1.acc, s1.cnt, s1.gcnt⟩ _
  · rfl

/-- FLUSH of the Base85 encoder on the bit packer. -/
def encodeFlush85 (k : Packer) : Emission :=
  if 0 < k.gcnt.toNat then
    ⟨((digits85 (k.acc.toNat <<< (8 * (4 - k.gcnt.toNat)))).take (k.gcnt.toNat + 1)).map char85, ⟨0, k.cnt, 0⟩⟩
  else ⟨[], k⟩

theorem flushEncodeBase85_eq_emit (s : State) : flushEncodeBase85 s = s.emit (encodeFlush85 s.packer) := by
  unfold flushEncodeBase85 encodeFlush85
  show _ = s.emit (if 0 < s.gcnt.toNat then _ else _)
  split
  · exact emitTexts_acc_gcnt_eq_emit s _ 0 0
  · rfl

/-! ### Base91 (44_base91.md R201, R202) -/

/-- PUSH of the Base91 encoder on the bit packer. -/
def encodePush91 (cfg : Config) (b : Byte) (k : Packer) : Emission :=
  let acc := BitVec.ofNat 32 (k.acc.toNat ||| b.toNat <<< k.cnt.toNat)
  let cnt := k.cnt + 8
  if 14 ≤ cnt.toNat then
    let n := payloadBits acc.toNat
    let value := acc.toNat &&& (1 <<< n - 1)
    ⟨[tab91 cfg (value % 91), tab91 cfg (value / 91)],
      ⟨BitVec.ofNat 32 (acc.toNat >>> n), cnt - BitVec.ofNat 6 n, k.gcnt⟩⟩
  else ⟨[], ⟨acc, cnt, k.gcnt⟩⟩

theorem pushEncodeBase91_eq_emit (b : Byte) (s : State) :
    pushEncodeBase91 b s = s.emit (encodePush91 s.cfg b s.packer) := by
  unfold pushEncodeBase91 encodePush91
  extract_lets s1 n ch s2 acc cnt n' value
  show (if 14 ≤ s1.cnt.toNat then _ else _) = s.emit (if 14 ≤ s1.cnt.toNat then _ else _)
  split
  · rw [emitTexts_eq_emit]
    exact withPacker_emit s s2.packer _
  · rfl

/-- FLUSH of the Base91 encoder on the bit packer. -/
def encodeFlush91 (cfg : Config) (k : Packer) : Emission :=
  if 0 < k.cnt.toNat then
    ⟨tab91 cfg (k.acc.toNat % 91) ::
      (if 8 ≤ k.cnt.toNat ∨ 91 ≤ k.acc.toNat then [tab91 cfg (k.acc.toNat / 91)] else []), ⟨0, 0, k.gcnt⟩⟩
  else ⟨[], k⟩

theorem flushEncodeBase91_eq_emit (s : State) : flushEncodeBase91 s = s.emit (encodeFlush91 s.cfg s.packer) := by
  unfold flushEncodeBase91 encodeFlush91
  extract_lets t t1
  show _ = s.emit (if 0 < s.cnt.toNat then _ else _)
  split
  · have ht1 : t1 = s.emitTexts (tab91 s.cfg (s.acc.toNat % 91) ::
        (if 8 ≤ s.cnt.toNat ∨ 91 ≤ s.acc.toNat then [tab91 s.cfg (s.acc.toNat / 91)] else [])) :=
      (apply_ite t.emitTexts (8 ≤ s.cnt.toNat ∨ 91 ≤ s.acc.toNat) [tab91 s.cfg (s.acc.toNat / 91)] []).symm
    rw [ht1]
    exact emitTexts_acc_cnt_eq_emit s _ 0 0
  · rfl

/-! ### Every mode -/

/-- PUSH of the radix encoders on the bit packer, which they do not use (41_radix.md R140). -/
def encodePushRadix (cfg : Config) (r w : Nat) (b : Byte) (k : Packer) : Emission :=
  ⟨(numeral r w b.toNat).map (digitChar cfg.hexCase), k⟩

/-- The encode column of 40_control.md R114's table, on the bit packer. -/
def encodePush (cfg : Config) (m : Mode) (b : Byte) (k : Packer) : Emission :=
  match m with
  | .base02 => encodePushRadix cfg 2 8 b k
  | .base08 => encodePushRadix cfg 8 3 b k
  | .base10 => encodePushRadix cfg 10 3 b k
  | .base16 => encodePushRadix cfg 16 2 b k
  | .base32 => encodePush32 b k
  | .base85 => encodePush85 b k
  | .base91 => encodePush91 cfg b k

/-- The encode column of 40_control.md R115's table, on the bit packer. -/
def encodeFlush (cfg : Config) (m : Mode) (k : Packer) : Emission :=
  match m with
  | .base02 | .base08 | .base10 | .base16 => ⟨[], k⟩
  | .base32 => encodeFlush32 k
  | .base85 => encodeFlush85 k
  | .base91 => encodeFlush91 cfg k

theorem radixEncode_eq_emit (r w : Nat) (b : Byte) (s : State) :
    radixEncode r w b s = s.emit (encodePushRadix s.cfg r w b s.packer) :=
  emitTexts_eq_emit s _

theorem pushEncode_eq_emit (b : Byte) (s : State) :
    pushEncode b s = s.emit (encodePush s.cfg s.mode b s.packer) := by
  unfold pushEncode encodePush
  cases s.mode with
  | base02 | base08 | base10 | base16 => exact radixEncode_eq_emit _ _ b s
  | base32 => exact pushEncodeBase32_eq_emit b s
  | base85 => exact pushEncodeBase85_eq_emit b s
  | base91 => exact pushEncodeBase91_eq_emit b s

theorem flushEncode_eq_emit (s : State) : flushEncode s = s.emit (encodeFlush s.cfg s.mode s.packer) := by
  unfold flushEncode encodeFlush
  cases s.mode with
  | base02 | base08 | base10 | base16 => rfl
  | base32 => exact flushEncodeBase32_eq_emit s
  | base85 => exact flushEncodeBase85_eq_emit s
  | base91 => exact flushEncodeBase91_eq_emit s

/-- The whole encoding of `data` from the bit packer `k` on, up to and with the FLUSH. -/
def encodeAll (cfg : Config) (m : Mode) (k : Packer) : List Byte → Emission
  | [] => encodeFlush cfg m k
  | b :: data => (encodePush cfg m b k).append (encodeAll cfg m (encodePush cfg m b k).left data)

/-- The characters of the encoding of `data`, separators not counted. -/
def encodedText (cfg : Config) (m : Mode) (data : List Byte) : List Byte :=
  (encodeAll cfg m Packer.empty data).units

end Sys2Proof.Machine
end

section
/-! PROOFS. Running a list of commands: no command reads the host's later transactions, so a run is the effects of
its commands one after the other; and what OPEN, the PUSHes and the FLUSH of an invocation come to. -/

namespace Sys2Proof.Machine

/-! ### No command reads the port (20_memory.md R75) -/

def State.withPort (s : State) (p : List PortEvent) : State := { s with port := p }

@[simp] theorem withPort_mode (s : State) (p : List PortEvent) : (s.withPort p).mode = s.mode := rfl

@[simp] theorem withPort_dir (s : State) (p : List PortEvent) : (s.withPort p).dir = s.dir := rfl

/-- The state after a command; every command answers one (60_exceptions.md R235). -/
def State.after (s : State) (i : Instr) : State :=
  match exec i s with
  | .next t => t
  | .fault _ | .refused _ => s

theorem after_of_exec {i : Instr} {s t : State} (h : exec i s = .next t) : s.after i = t := by
  rw [State.after, h]

theorem exec_eq_after (i : Instr) (s : State) : exec i s = .next (s.after i) := by
  obtain ⟨t, h, -⟩ := exec_effect i s
  rw [after_of_exec h, h]

/-- A choice that a function commutes with in both branches. -/
theorem ite_eq_map_ite {α β : Type} (f : α → β) {p : Prop} [Decidable p] {a b : β} {a' b' : α}
    (ha : a = f a') (hb : b = f b') : (if p then a else b) = f (if p then a' else b') := by
  split
  · exact ha
  · exact hb

theorem emitText_withPort (s : State) (p : List PortEvent) (c : Byte) :
    (s.withPort p).emitText c = (s.emitText c).withPort p :=
  ite_eq_map_ite (State.withPort · p) rfl (ite_eq_map_ite (State.withPort · p) rfl rfl)

theorem emitTexts_withPort (s : State) (p : List PortEvent) (cs : List Byte) :
    (s.withPort p).emitTexts cs = (s.emitTexts cs).withPort p := by
  induction cs generalizing s with
  | nil => rfl
  | cons c cs ih => rw [emitTexts_cons, emitText_withPort, ih, emitTexts_cons]

theorem emit_withPort (s : State) (p : List PortEvent) (e : Emission) :
    (s.withPort p).emit e = (s.emit e).withPort p := by
  rw [State.emit, emitTexts_withPort]
  rfl

theorem pushEncode_withPort (s : State) (p : List PortEvent) (b : Byte) :
    pushEncode b (s.withPort p) = (pushEncode b s).withPort p := by
  rw [pushEncode_eq_emit, pushEncode_eq_emit, ← emit_withPort]
  rfl

theorem flushEncode_withPort (s : State) (p : List PortEvent) :
    flushEncode (s.withPort p) = (flushEncode s).withPort p := by
  rw [flushEncode_eq_emit, flushEncode_eq_emit, ← emit_withPort]
  rfl

/-- What a decode rule answers, with another port in the completed state. -/
def resultWithPort (p : List PortEvent) (r : Except RaisedFault State) : Except RaisedFault State :=
  r.map (·.withPort p)

theorem radixDecode_withPort (s : State) (p : List PortEvent) (r w : Nat) (c : Byte) :
    radixDecode r w c (s.withPort p) = resultWithPort p (radixDecode r w c s) := by
  unfold radixDecode
  cases digitValue c with
  | none => rfl
  | some d =>
    have hgroup := ite_eq_map_ite (resultWithPort p) (p := 255 < s.acc.toNat * r + d ∧ s.cfg.radixRange = .fault)
      (a' := .error ⟨.radixRange, c⟩)
      (b' := .ok { s.emitByte (unit ((s.acc.toNat * r + d) % 256)) with acc := 0, gcnt := 0 }) rfl rfl
    exact ite_eq_map_ite (resultWithPort p) rfl (ite_eq_map_ite (resultWithPort p) hgroup rfl)

theorem pushDecodeBase32_withPort (s : State) (p : List PortEvent) (c : Byte) :
    pushDecodeBase32 c (s.withPort p) = resultWithPort p (pushDecodeBase32 c s) := by
  unfold pushDecodeBase32
  refine ite_eq_map_ite (resultWithPort p) rfl ?_
  split
  · rfl
  · extract_lets s1 emitted s2 t1 emitted' t2
    have ht2 : s2 = t2.withPort p := ite_eq_map_ite (State.withPort · p) rfl rfl
    rw [ht2]
    rfl

theorem assignAcc85_withPort (s : State) (p : List PortEvent) (v : Nat) (c : Byte) :
    assignAcc85 v c (s.withPort p) = resultWithPort p (assignAcc85 v c s) :=
  ite_eq_map_ite (resultWithPort p) rfl rfl

theorem pushDecodeBase85_withPort (s : State) (p : List PortEvent) (c : Byte) :
    pushDecodeBase85 c (s.withPort p) = resultWithPort p (pushDecodeBase85 c s) := by
  unfold pushDecodeBase85
  simp only [emitBytes_eq, assignAcc85_withPort]
  refine ite_eq_map_ite (resultWithPort p) (ite_eq_map_ite (resultWithPort p) rfl rfl) ?_
  cases value85 c with
  | none => rfl
  | some d =>
    dsimp only [State.withPort]
    cases assignAcc85 (s.acc.toNat + d * pow85 s.gcnt.toNat) c s with
    | error f => rfl
    | ok t => exact ite_eq_map_ite (resultWithPort p) rfl rfl

theorem flushDecodeBase85_withPort (s : State) (p : List PortEvent) :
    flushDecodeBase85 (s.withPort p) = resultWithPort p (flushDecodeBase85 s) := by
  unfold flushDecodeBase85
  simp only [emitBytes_eq, assignAcc85_withPort]
  refine ite_eq_map_ite (resultWithPort p) rfl (ite_eq_map_ite (resultWithPort p) ?_ rfl)
  dsimp only [State.withPort]
  cases assignAcc85 (s.acc.toNat + pow85 (s.gcnt.toNat - 1)) 0 s <;> rfl

theorem drainBytes91_withPort (fuel : Nat) (s : State) (p : List PortEvent) :
    drainBytes91 fuel (s.withPort p) = (drainBytes91 fuel s).withPort p := by
  induction fuel generalizing s with
  | zero => rfl
  | succ fuel ih =>
    exact ite_eq_map_ite (State.withPort · p)
      (ih { s.emitByte (unit (s.acc.toNat &&& 0xFF)) with
        acc := BitVec.ofNat 32 (s.acc.toNat >>> 8), cnt := s.cnt - 8 }) rfl

/-- The state in which the loop of 44_base91.md R204 begins when the symbol `d` completes a pair. -/
def State.pairLoaded91 (s : State) (d : Nat) : State :=
  { s with
    pend := 0, pendv := false
    acc := BitVec.ofNat 32 (s.acc.toNat ||| (s.pend.toNat + d * 91) <<< s.cnt.toNat)
    cnt := s.cnt + BitVec.ofNat 6 (payloadBits (s.pend.toNat + d * 91)) }

theorem pushDecodeBase91_withPort (s : State) (p : List PortEvent) (c : Byte) :
    pushDecodeBase91 c (s.withPort p) = resultWithPort p (pushDecodeBase91 c s) := by
  unfold pushDecodeBase91
  dsimp only [State.withPort]
  cases idx91 s.cfg c with
  | none => rfl
  | some d =>
    exact ite_eq_map_ite (resultWithPort p)
      (congrArg Except.ok (drainBytes91_withPort (s.pairLoaded91 d).cnt.toNat (s.pairLoaded91 d) p)) rfl

theorem flushDecodeBase91_withPort (s : State) (p : List PortEvent) :
    flushDecodeBase91 (s.withPort p) = resultWithPort p (flushDecodeBase91 s) := by
  unfold flushDecodeBase91
  extract_lets emitted t emitted' u
  have ht : t = u.withPort p := ite_eq_map_ite (State.withPort · p) rfl rfl
  rw [ht]
  rfl

theorem pushDecode_withPort (s : State) (p : List PortEvent) (c : Byte) :
    pushDecode c (s.withPort p) = resultWithPort p (pushDecode c s) := by
  unfold pushDecode
  rw [withPort_mode]
  cases s.mode with
  | base02 | base08 | base10 | base16 => exact radixDecode_withPort s p _ _ c
  | base32 => exact pushDecodeBase32_withPort s p c
  | base85 => exact pushDecodeBase85_withPort s p c
  | base91 => exact pushDecodeBase91_withPort s p c

theorem flushDecode_withPort (s : State) (p : List PortEvent) :
    flushDecode (s.withPort p) = resultWithPort p (flushDecode s) := by
  unfold flushDecode
  rw [withPort_mode]
  cases s.mode with
  | base02 | base08 | base10 | base16 => rfl
  | base32 => exact ite_eq_map_ite (resultWithPort p) rfl rfl
  | base85 => exact flushDecodeBase85_withPort s p
  | base91 => exact flushDecodeBase91_withPort s p

theorem settle_withPort (s : State) (p : List PortEvent) (r : Except RaisedFault State) :
    settle (s.withPort p) (resultWithPort p r) = (settle s r).withPort p := by
  cases r <;> rfl

theorem pushFiltered_withPort (s : State) (p : List PortEvent) (c : Byte) :
    pushFiltered c (s.withPort p) = (pushFiltered c s).withPort p := by
  unfold pushFiltered
  rw [pushDecode_withPort, settle_withPort]
  exact ite_eq_map_ite (State.withPort · p) rfl (ite_eq_map_ite (State.withPort · p) rfl rfl)

theorem flushRule_withPort (s : State) (p : List PortEvent) :
    flushRule (s.withPort p) = resultWithPort p (flushRule s) := by
  unfold flushRule
  rw [flushEncode_withPort, flushDecode_withPort, withPort_dir]
  cases s.dir with
  | encode => rfl
  | decode => cases flushDecode s <;> rfl

theorem insideActive_withPort (s : State) (p : List PortEvent) (run : State → State)
    (hrun : run (s.withPort p) = (run s).withPort p) :
    insideActive (s.withPort p) run = (insideActive s run).withPort p :=
  ite_eq_map_ite (State.withPort · p) hrun rfl

theorem outsideActive_withPort (s : State) (p : List PortEvent) (run : State → State)
    (hrun : run (s.withPort p) = (run s).withPort p) :
    outsideActive (s.withPort p) run = (outsideActive s run).withPort p :=
  ite_eq_map_ite (State.withPort · p) rfl hrun

theorem openCommand_withPort (s : State) (p : List PortEvent) (d : Dir) (code : BitVec 3) :
    openCommand d code (s.withPort p) = (openCommand d code s).withPort p := by
  refine outsideActive_withPort s p _ ?_
  cases Mode.ofCode code <;> rfl

/-- A command whose meaning is the total function `run`, which does not read the port. -/
theorem after_withPort_of_next {i : Instr} {run : State → State} (hexec : ∀ s, exec i s = .next (run s)) (s : State)
    (p : List PortEvent) (hrun : run (s.withPort p) = (run s).withPort p) :
    (s.withPort p).after i = (s.after i).withPort p := by
  rw [after_of_exec (hexec _), after_of_exec (hexec _), hrun]

theorem after_withPort (i : Instr) (s : State) (p : List PortEvent) :
    (s.withPort p).after i = (s.after i).withPort p := by
  cases i with
  | push b =>
    refine after_withPort_of_next (fun _ => rfl) s p (insideActive_withPort s p _ ?_)
    rw [pushEncode_withPort, pushFiltered_withPort, withPort_dir]
    cases s.dir <;> rfl
  | flush =>
    refine after_withPort_of_next (fun _ => rfl) s p (insideActive_withPort s p _ ?_)
    rw [flushRule_withPort, settle_withPort]
  | setll len => exact after_withPort_of_next (fun _ => rfl) s p (outsideActive_withPort s p _ rfl)
  | setsep sel b =>
    refine after_withPort_of_next (fun _ => rfl) s p (outsideActive_withPort s p _ ?_)
    exact ite_eq_map_ite (State.withPort · p) rfl rfl
  | _ => exact after_withPort_of_next (fun _ => rfl) s p (openCommand_withPort s p _ _)

/-! ### Running a list of commands -/

/-- The state after a list of commands. -/
def State.afterAll (s : State) (cmds : List Instr) : State := cmds.foldl State.after s

/-- The host's transactions that issue these commands. -/
def commandEvents (cmds : List Instr) : List PortEvent := cmds.map fun i => .command (encode i)

theorem runFor_commands (cmds : List Instr) (s : State) :
    runFor cmds.length (s.withPort (commandEvents cmds)) = .next ((s.afterAll cmds).withPort []) := by
  induction cmds generalizing s with
  | nil => rfl
  | cons i cmds ih =>
    have hstep : step (s.withPort (commandEvents (i :: cmds))) = .next ((s.after i).withPort (commandEvents cmds)) := by
      rw [step_of_command rfl (decodeOfEncode i), ← after_withPort]
      exact exec_eq_after i _
    exact (runFor_succ_of_next _ _ _ hstep).trans (ih (s.after i))

/-- Issuing commands runs them one after the other. -/
theorem issue_eq (cmds : List Instr) (s : State) : issue cmds s = .next ((s.afterAll cmds).withPort []) :=
  runFor_commands cmds s

/-! ### An invocation -/

/-- The state after PUSHes of these units. -/
def State.afterPushes (s : State) (units : List Byte) : State := s.afterAll (pushAll units)

@[simp] theorem afterPushes_nil (s : State) : s.afterPushes [] = s := rfl

@[simp] theorem afterPushes_cons (s : State) (c : Byte) (cs : List Byte) :
    s.afterPushes (c :: cs) = (s.after (.push c)).afterPushes cs := rfl

theorem afterPushes_append (s : State) (cs ds : List Byte) :
    s.afterPushes (cs ++ ds) = (s.afterPushes cs).afterPushes ds := by
  simp [State.afterPushes, State.afterAll, pushAll]

theorem openInstr_mem_openRows (d : Dir) (m : Mode) : (openInstr d m, d, m) ∈ openRows := by
  cases d with
  | encode => cases m <;> decide
  | decode => cases m <;> decide

theorem issue_invocation {s : State} (hphase : s.phase ≠ .active) (d : Dir) (m : Mode) (units : List Byte) :
    issue (invocation d m units) s =
      .next ((((startInvocation d m s).afterPushes units).after .flush).withPort []) := by
  have hopen : s.after (openInstr d m) = startInvocation d m s :=
    after_of_exec (exec_openRow (openInstr_mem_openRows d m) hphase)
  rw [issue_eq, ← hopen]
  simp [invocation, State.afterPushes, State.afterAll]

theorem after_flush_of_active {s : State} (hphase : s.phase = .active) :
    s.after .flush = settle s (flushRule s) :=
  after_of_exec (congrArg Host.Outcome.next (insideActive_of_active _ _ hphase))

theorem after_push_of_decoding {s : State} {m : Mode} (hruns : s.runs .decode m) (c : Byte) :
    s.after (.push c) = pushFiltered c s := after_of_exec (exec_push_of_decoding hruns c)

theorem after_push_of_encoding {s : State} {m : Mode} (hruns : s.runs .encode m) (b : Byte) :
    s.after (.push b) = s.emit (encodePush s.cfg m b s.packer) := by
  obtain ⟨hphase, hdir, rfl⟩ := hruns
  rw [← pushEncode_eq_emit]
  refine after_of_exec (congrArg Host.Outcome.next ?_)
  rw [insideActive_of_active _ _ hphase, hdir]

theorem after_flush_of_encoding {s : State} {m : Mode} (hruns : s.runs .encode m) :
    s.after .flush = { s.emit (encodeFlush s.cfg m s.packer) with phase := .done } := by
  obtain ⟨hphase, hdir, rfl⟩ := hruns
  rw [after_flush_of_active hphase, flushRule, hdir, ← flushEncode_eq_emit]
  rfl

/-- The PUSHes and the FLUSH of an encode invocation are one emission. -/
theorem afterPushes_flush_of_encoding (data : List Byte) {s : State} {m : Mode} (hruns : s.runs .encode m) :
    (s.afterPushes data).after .flush = { s.emit (encodeAll s.cfg m s.packer data) with phase := .done } := by
  induction data generalizing s with
  | nil => exact after_flush_of_encoding hruns
  | cons b data ih =>
    rw [afterPushes_cons, after_push_of_encoding hruns, ih (emit_runs hruns _), emit_emit, emit_cfg, emit_packer]
    rfl

/-- What an encode invocation comes to: the framer gets the text of the data, which depends on the mode and the
parameters only. -/
def State.encoded (s : State) (m : Mode) (data : List Byte) : State :=
  { (startInvocation .encode m s).emit (encodeAll s.cfg m Packer.empty data) with phase := .done, port := [] }

theorem issue_encodeProgram {s : State} (hphase : s.phase ≠ .active) (m : Mode) (data : List Byte) :
    issue (encodeProgram m data) s = .next (s.encoded m data) := by
  rw [encodeProgram, issue_invocation hphase, afterPushes_flush_of_encoding data ⟨rfl, rfl, rfl⟩]
  rfl

@[simp] theorem encoded_phase (s : State) (m : Mode) (data : List Byte) : (s.encoded m data).phase = .done := rfl

@[simp] theorem encoded_cfg (s : State) (m : Mode) (data : List Byte) : (s.encoded m data).cfg = s.cfg :=
  emit_cfg (startInvocation .encode m s) _

theorem issue_decodeProgram {d : State} (hphase : d.phase ≠ .active) (m : Mode) (text : List Byte) :
    issue (decodeProgram m text) d =
      .next ((((startInvocation .decode m d).afterPushes text).after .flush).withPort []) :=
  issue_invocation hphase .decode m text

end Sys2Proof.Machine
end

section
/-! PROOFS. The framer and the skip filter over a whole invocation (40_control.md R114, R118, R120, R123 to R125):
the empty invocation, where the separators stand, and that a decoder does not see them. -/

namespace Sys2Proof.Machine

/-! ### The empty invocation (R124) -/

theorem encodedText_nil (cfg : Config) (m : Mode) : encodedText cfg m [] = [] := by
  cases m <;> rfl

/-- Settles O52: the FLUSH finds the bit packer empty, in both directions and every mode. -/
theorem emptyInvocation : Obligations.EmptyInvocation := by
  intro d m s hphase
  cases d with
  | encode =>
    refine ⟨_, issue_encodeProgram hphase m [], ?_, rfl⟩
    show ((startInvocation .encode m s).emitTexts (encodedText s.cfg m [])).out = s.out
    rw [encodedText_nil]
    rfl
  | decode =>
    refine ⟨_, issue_decodeProgram hphase m [], ?_⟩
    rw [afterPushes_nil, after_flush_of_active (startInvocation_phase _ _ _), flushRule, startInvocation_dir]
    cases m <;> exact ⟨rfl, rfl⟩

/-! ### Where the separators stand (R123) -/

/-- The characters `cs` with `sep` after those whose number, counted on from `k`, is a multiple of `l`. -/
def framed (l : Nat) (sep : List Byte) (k : Nat) (cs : List Byte) : List Byte :=
  (cs.zipIdx (k + 1)).flatMap fun p => if p.2 % l = 0 then p.1 :: sep else [p.1]

theorem framed_cons (l : Nat) (sep : List Byte) (k : Nat) (c : Byte) (cs : List Byte) :
    framed l sep k (c :: cs) = (if (k + 1) % l = 0 then c :: sep else [c]) ++ framed l sep (k + 1) cs := rfl

theorem insertSeparators_of_pos {l : Nat} (h : 0 < l) (sep cs : List Byte) :
    insertSeparators l sep cs = framed l sep 0 cs := if_neg h.ne'

/-- One character at the position that `k` characters have led to. -/
theorem emitText_framed {s : State} {k : Nat} (hllen : 0 < s.llen.toNat) (hlpos : s.lpos.toNat = k % s.llen.toNat)
    (c : Byte) :
    (s.emitText c).out = s.out ++ (if (k + 1) % s.llen.toNat = 0 then c :: s.separator else [c]) ∧
      (s.emitText c).lpos.toNat = (k + 1) % s.llen.toNat := by
  have hwrap : s.llen ≠ 0 := fun h => absurd hllen (by simp [h])
  have hline : s.lpos.toNat < s.llen.toNat := hlpos ▸ Nat.mod_lt k hllen
  have hnext : (s.lpos + 1).toNat = s.lpos.toNat + 1 := by bv_omega
  have hmod : (s.lpos.toNat + 1) % s.llen.toNat = (k + 1) % s.llen.toNat := by rw [hlpos, Nat.mod_add_mod]
  rw [← hmod]
  by_cases hlast : s.lpos + 1 = s.llen
  · have hzero : (s.lpos.toNat + 1) % s.llen.toNat = 0 := by rw [← hnext, hlast, Nat.mod_self]
    rw [emitText_of_line_full hwrap hlast, if_pos hzero, hzero]
    exact ⟨rfl, rfl⟩
  · have hopen : (s.lpos.toNat + 1) % s.llen.toNat = s.lpos.toNat + 1 := Nat.mod_eq_of_lt (by bv_omega)
    rw [emitText_of_line_open hwrap hlast, hopen, if_neg (Nat.succ_ne_zero _)]
    exact ⟨rfl, hnext⟩

theorem emitTexts_framed (cs : List Byte) {s : State} {k : Nat} (hllen : 0 < s.llen.toNat)
    (hlpos : s.lpos.toNat = k % s.llen.toNat) :
    (s.emitTexts cs).out = s.out ++ framed s.llen.toNat s.separator k cs ∧
      (s.emitTexts cs).lpos.toNat = (k + cs.length) % s.llen.toNat := by
  induction cs generalizing s k with
  | nil => exact ⟨(List.append_nil _).symm, hlpos⟩
  | cons c cs ih =>
    obtain ⟨hout, hnext⟩ := emitText_framed hllen hlpos c
    obtain ⟨houts, hlast⟩ := ih (s := s.emitText c) (k := k + 1) (by simpa using hllen) (by simpa using hnext)
    rw [emitTexts_cons, houts, hlast, hout, framed_cons, emitText_llen, separator_emitText, List.append_assoc,
      List.length_cons, Nat.add_right_comm, Nat.add_assoc]
    exact ⟨rfl, rfl⟩

/-- There are as many separators as lines end between the numbers `k` and `k + n`. -/
theorem length_framed (l : Nat) (sep : List Byte) (k : Nat) (cs : List Byte) :
    (framed l sep k cs).length + k / l * sep.length = cs.length + (k + cs.length) / l * sep.length := by
  induction cs generalizing k with
  | nil => rfl
  | cons c cs ih =>
    have hrest := ih (k + 1)
    rw [framed_cons, List.length_append, List.length_cons, show k + (cs.length + 1) = k + 1 + cs.length by omega]
    by_cases hend : (k + 1) % l = 0
    · rw [Nat.succ_div_of_dvd (Nat.dvd_of_mod_eq_zero hend), Nat.add_mul] at hrest
      rw [if_pos hend, List.length_cons]
      omega
    · rw [Nat.succ_div_of_not_dvd fun hdvd => hend (Nat.mod_eq_zero_of_dvd hdvd)] at hrest
      rw [if_neg hend, List.length_singleton]
      omega

/-- What an encode invocation appends to OUT. -/
theorem encoded_out (s : State) (m : Mode) (data : List Byte) :
    (s.encoded m data).out = s.out ++ insertSeparators s.llen.toNat s.separator (encodedText s.cfg m data) := by
  show ((startInvocation .encode m s).emitTexts (encodedText s.cfg m data)).out = _
  by_cases hllen : 0 < s.llen.toNat
  · obtain ⟨hout, -⟩ := emitTexts_framed (encodedText s.cfg m data) (s := startInvocation .encode m s) (k := 0) hllen
      (Nat.zero_mod _).symm
    rw [insertSeparators_of_pos hllen]
    exact hout
  · have hzero : s.llen = 0 := by bv_omega
    rw [hzero]
    exact congrArg State.out (emitTexts_of_llen_zero (startInvocation .encode m s) (encodedText s.cfg m data) hzero)

/-- Settles O22: both invocations hand the framer the same text, which it frames by its length alone. -/
theorem framerInsertsSeparators : Obligations.FramerInsertsSeparators := by
  intro m data s hphase
  refine ⟨_, _, encodedText s.cfg m data, issue_encodeProgram (s := { s with llen := 0 }) hphase m data,
    encoded_out { s with llen := 0 } m data, issue_encodeProgram hphase m data, encoded_out s m data,
    fun hllen => ⟨?_, ?_⟩⟩
  · have hlength := length_framed s.llen.toNat s.separator 0 (encodedText s.cfg m data)
    rw [insertSeparators_of_pos hllen]
    simpa using hlength
  · obtain ⟨-, hlpos⟩ := emitTexts_framed (encodedText s.cfg m data) (s := startInvocation .encode m s) (k := 0) hllen
      (Nat.zero_mod _).symm
    rw [Nat.zero_add] at hlpos
    exact hlpos

/-! ### What a decoder does not see (R118, R125) -/

/-- PUSHes and a FLUSH after the end of an invocation are refused, with the one record (R116, R117). -/
theorem afterPushes_flush_of_not_active (text : List Byte) {s : State} (hphase : s.phase ≠ .active) :
    (s.afterPushes text).after .flush = raiseCmdError .badSequence s := by
  induction text generalizing s with
  | nil => exact after_of_exec (congrArg Host.Outcome.next (insideActive_of_not_active _ _ hphase))
  | cons c text ih =>
    have hpush : s.after (.push c) = raiseCmdError .badSequence s :=
      after_of_exec (congrArg Host.Outcome.next (insideActive_of_not_active _ _ hphase))
    rw [afterPushes_cons, hpush, ih (s := raiseCmdError .badSequence s) hphase]
    simp [raiseCmdError]

/-- What a PUSH keeps of an invocation besides PHASE. -/
theorem CommandEffect.push_keeps {s t : State} {c : Byte} (h : CommandEffect s (.push c) t) :
    t.dir = s.dir ∧ t.mode = s.mode ∧ t.cfg = s.cfg := by
  cases h with
  | badSequence | reservedMode | faulted => exact ⟨rfl, rfl, rfl⟩
  | opened hrow => simp [openRows] at hrow
  | pushed _ hdata =>
    obtain ⟨units, ht⟩ := hdata.eq_update
    rw [ht]
    exact ⟨rfl, rfl, rfl⟩

/-- The characters that the mode's decoder reads. -/
def dropSkippable (cfg : Config) (m : Mode) (text : List Byte) : List Byte :=
  text.filter fun c => !skippable cfg m c

/-- Dropping skippable characters before a FLUSH changes nothing, whether the invocation has faulted or not. -/
theorem afterPushes_dropSkippable (text : List Byte) {d : State} (hdir : d.dir = .decode) :
    ((d.afterPushes (dropSkippable d.cfg d.mode text)).after .flush) = (d.afterPushes text).after .flush := by
  induction text generalizing d with
  | nil => rfl
  | cons c text ih =>
    by_cases hphase : d.phase = .active
    · obtain ⟨hdir', hmode', hcfg'⟩ := (commandEffect_of_exec (exec_eq_after (.push c) d)).push_keeps
      have hrest := ih (hdir'.trans hdir)
      rw [hmode', hcfg'] at hrest
      rw [afterPushes_cons, ← hrest]
      cases hskip : skippable d.cfg d.mode c with
      | true =>
        rw [after_push_of_decoding ⟨hphase, hdir, rfl⟩, pushFiltered_of_skippable hskip]
        simp [dropSkippable, hskip]
      | false =>
        simp [dropSkippable, hskip]
    · rw [afterPushes_flush_of_not_active _ hphase, afterPushes_flush_of_not_active _ hphase]

theorem issue_decodeProgram_dropSkippable {d : State} (hphase : d.phase ≠ .active) (m : Mode) (text : List Byte) :
    issue (decodeProgram m (dropSkippable d.cfg m text)) d = issue (decodeProgram m text) d := by
  rw [issue_decodeProgram hphase, issue_decodeProgram hphase]
  exact congrArg (fun t : State => Host.Outcome.next (t.withPort []))
    (afterPushes_dropSkippable text (startInvocation_dir .decode m d))

/-- Settles O24. -/
theorem skippedCharactersInvisible : Obligations.SkippedCharactersInvisible := fun m text _ hphase =>
  ⟨_, issue_decodeProgram hphase m text,
    (issue_decodeProgram_dropSkippable hphase m text).trans (issue_decodeProgram hphase m text)⟩

/-- A skippable separator is gone with the other skippable characters. -/
theorem dropSkippable_insertSeparators {cfg : Config} {m : Mode} {sep : List Byte}
    (hsep : ∀ c ∈ sep, skippable cfg m c = true) (l : Nat) (text : List Byte) :
    dropSkippable cfg m (insertSeparators l sep text) = dropSkippable cfg m text := by
  unfold insertSeparators dropSkippable
  split
  · rfl
  · have hline (p : Byte × Nat) : (if p.2 % l = 0 then p.1 :: sep else [p.1]).filter (fun c => !skippable cfg m c) =
        [p.1].filter fun c => !skippable cfg m c := by
      have hnone : sep.filter (fun c => !skippable cfg m c) = [] := by simpa using hsep
      split
      · rw [List.filter_cons, List.filter_cons, hnone, List.filter_nil]
      · rfl
    rw [List.filter_flatMap]
    simp only [hline]
    rw [← List.filter_flatMap, ← List.map_eq_flatMap, List.zipIdx_map_fst]

/-- Decoding wrapped text is decoding the text, when the separator is skippable (R125). -/
theorem issue_decodeProgram_insertSeparators {d : State} (hphase : d.phase ≠ .active) {m : Mode} {sep : List Byte}
    (hsep : ∀ c ∈ sep, skippable d.cfg m c = true) (l : Nat) (text : List Byte) :
    issue (decodeProgram m (insertSeparators l sep text)) d = issue (decodeProgram m text) d := by
  rw [← issue_decodeProgram_dropSkippable hphase, dropSkippable_insertSeparators hsep,
    issue_decodeProgram_dropSkippable hphase]

/-- Settles O23: the wrapped output is the text of the data with separators that the decoder drops. -/
theorem wrappedTextDecodesAlike : Obligations.WrappedTextDecodesAlike := by
  intro m data s d hs hd hcfg hsep
  have hdecode :=
    issue_decodeProgram_insertSeparators hd (m := m) (by rwa [hcfg]) s.llen.toNat (encodedText s.cfg m data)
  exact ⟨_, _, _, _, _, issue_encodeProgram (s := { s with llen := 0 }) hs m data,
    encoded_out { s with llen := 0 } m data, issue_encodeProgram hs m data, encoded_out s m data,
    hdecode.trans (issue_decodeProgram hd m _), issue_decodeProgram hd m _⟩

end Sys2Proof.Machine
end

section
/-! PROOFS. Round trips (40_control.md R126): a decoder that follows the encoder symbol by symbol, packaged once as
an induction over the data, and what legal parameters say about the symbols of every alphabet. -/

namespace Sys2Proof.Machine

/-! ### With legal parameters no symbol is skippable (00_scope.md R5, R6) -/

/-- SKIPX holds no symbol of its mode (00_scope.md R6). -/
theorem skipxDisjoint_of_wf {cfg : Config} (hwf : cfg.wf = true) {m : Mode} {c : Byte}
    (hsymbol : inAlphabet cfg m c = true) : c ∉ skipExtra cfg m := by
  have hdisjoint : cfg.skipxDisjoint m = true := by
    simp only [Config.wf, Bool.and_eq_true, List.all_cons, List.all_nil] at hwf
    cases m <;> simp [hwf]
  intro hextra
  have hnot := List.all_eq_true.mp hdisjoint c hextra
  simp [hsymbol] at hnot

/-- SKIPX holds neither special character where it is one (00_scope.md R6). -/
theorem specials_of_wf {cfg : Config} (hwf : cfg.wf = true) :
    padChar ∉ skipExtra cfg .base32 ∧ zChar ∉ skipExtra cfg .base85 := by
  simp only [Config.wf, Bool.and_eq_true, Config.skipxNoPad, Config.skipxNoZ, Bool.not_eq_true',
    List.contains_eq_mem, decide_eq_false_iff_not] at hwf
  obtain ⟨⟨-, hpad⟩, hz⟩ := hwf
  exact ⟨hpad, hz⟩

theorem not_skippable_of {cfg : Config} {m : Mode} {c : Byte} (hcommon : c ∉ commonSkip)
    (hextra : c ∉ skipExtra cfg m) : skippable cfg m c = false := by simp [skippable, hcommon, hextra]

/-- The alphabets of the radix modes are the digits below the radix. -/
theorem inAlphabet_digitChar (cfg : Config) {m : Mode} {r w : Nat} (hm : (m, r, w) ∈ radixModes) {d : Nat}
    (hd : d < r) : d < 16 ∧ inAlphabet cfg m (digitChar cfg.hexCase d) = true := by
  simp only [radixModes, List.mem_cons, Prod.mk.injEq, List.not_mem_nil, or_false] at hm
  rcases hm with h | h | h | h
  all_goals
    obtain ⟨rfl, rfl, rfl⟩ := h
    have hlt : d < 16 := by omega
    exact ⟨hlt, by rw [inAlphabet, digitValue_digitChar _ hlt]; exact decide_eq_true hd⟩

theorem digit_not_skippable {cfg : Config} (hwf : cfg.wf = true) {m : Mode} {r w : Nat} (hm : (m, r, w) ∈ radixModes)
    {d : Nat} (hd : d < r) : skippable cfg m (digitChar cfg.hexCase d) = false := by
  obtain ⟨hlt, hsymbol⟩ := inAlphabet_digitChar cfg hm hd
  have hcommon : ∀ c ∈ commonSkip, digitValue c = none := by decide
  refine not_skippable_of (fun h => ?_) (skipxDisjoint_of_wf hwf hsymbol)
  exact Option.some_ne_none d ((digitValue_digitChar _ hlt).symm.trans (hcommon _ h))

theorem tab32_not_skippable {cfg : Config} (hwf : cfg.wf = true) {i : Nat} (hi : i < 32) :
    skippable cfg .base32 (tab32 i) = false := by
  have hidx : idx32 (tab32 i) = some i := (idx32_eq_some_iff_tab32 _ i).mpr ⟨hi, rfl⟩
  have hcommon : ∀ c ∈ commonSkip, idx32 c = none := by decide
  refine not_skippable_of (fun h => ?_) (skipxDisjoint_of_wf hwf (by simp [inAlphabet, hidx]))
  exact Option.some_ne_none i (hidx.symm.trans (hcommon _ h))

theorem padChar_not_skippable {cfg : Config} (hwf : cfg.wf = true) : skippable cfg .base32 padChar = false := by
  obtain ⟨hpad, -⟩ := specials_of_wf hwf
  exact not_skippable_of (by decide) hpad

theorem char85_not_skippable {cfg : Config} (hwf : cfg.wf = true) {d : Nat} (hd : d < 85) :
    skippable cfg .base85 (char85 d) = false := by
  have hvalue : value85 (char85 d) = some d := (value85_eq_some_iff_char85 _ d).mpr ⟨hd, rfl⟩
  have hcommon : ∀ c ∈ commonSkip, value85 c = none := by decide
  refine not_skippable_of (fun h => ?_) (skipxDisjoint_of_wf hwf (by simp [inAlphabet, hvalue]))
  exact Option.some_ne_none d (hvalue.symm.trans (hcommon _ h))

theorem zChar_not_skippable {cfg : Config} (hwf : cfg.wf = true) : skippable cfg .base85 zChar = false := by
  obtain ⟨-, hz⟩ := specials_of_wf hwf
  exact not_skippable_of (by decide) hz

theorem punct_printable_of_wf {cfg : Config} (hwf : cfg.wf = true) : ∀ c ∈ cfg.b91Punct.toList, 0x21 ≤ c.toNat := by
  simp only [Config.wf, Bool.and_eq_true, Config.punctPrintable, List.all_eq_true, decide_eq_true_eq] at hwf
  obtain ⟨⟨⟨⟨⟨⟨-, hprintable⟩, -⟩, -⟩, -⟩, -⟩, -⟩ := hwf
  intro c hc
  obtain ⟨hlow, -⟩ := hprintable c hc
  exact hlow

theorem tab91_not_skippable {cfg : Config} (hwf : cfg.wf = true) {i : Nat} (hi : i < 91) :
    skippable cfg .base91 (tab91 cfg i) = false := by
  have hidx := idx91_tab91 hwf hi
  have hlt : i < (alphabet91 cfg).length := by rwa [alphabet91_length]
  have hmem : tab91 cfg i ∈ alphanumerics91 ++ cfg.b91Punct.toList := tab91_eq_getElem cfg hlt ▸ List.getElem_mem hlt
  refine not_skippable_of (fun h => ?_) (skipxDisjoint_of_wf hwf (by simp [inAlphabet, hidx]))
  have hcommon : ∀ c ∈ commonSkip, c.toNat < 0x21 := by decide
  have hlow := hcommon _ h
  obtain halnum | hpunct := List.mem_append.mp hmem
  · have hcode := toNat_of_mem_alphanumerics91 halnum
    omega
  · have hprintable := punct_printable_of_wf hwf _ hpunct
    omega

/-! ### The decode columns of R114 and R115 by mode -/

theorem pushDecode_of_base32 {s : State} (h : s.mode = .base32) (c : Byte) : pushDecode c s = pushDecodeBase32 c s := by
  rw [pushDecode, h]

theorem flushDecode_of_base32 {s : State} (h : s.mode = .base32) : flushDecode s = flushDecodeBase32 s := by
  rw [flushDecode, h]

theorem pushDecode_of_base85 {s : State} (h : s.mode = .base85) (c : Byte) : pushDecode c s = pushDecodeBase85 c s := by
  rw [pushDecode, h]

theorem flushDecode_of_base85 {s : State} (h : s.mode = .base85) : flushDecode s = flushDecodeBase85 s := by
  rw [flushDecode, h]

theorem pushDecode_of_base91 {s : State} (h : s.mode = .base91) (c : Byte) : pushDecode c s = pushDecodeBase91 c s := by
  rw [pushDecode, h]

theorem flushDecode_of_base91 {s : State} (h : s.mode = .base91) : flushDecode s = flushDecodeBase91 s := by
  rw [flushDecode, h]

/-! ### A decoder in step with an encoder -/

/-- A decode invocation in mode `m` under the parameters `cfg`, with no padding read. -/
structure Reading (cfg : Config) (m : Mode) (d : State) : Prop where
  runs : d.runs .decode m
  cfg_eq : d.cfg = cfg
  padseen : d.padseen = false

/-- What a PUSH of a character does that the rule of the mode reads without a fault. -/
theorem Reading.after_push {cfg : Config} {m : Mode} {d t : State} (h : Reading cfg m d) {c : Byte}
    (hskip : skippable cfg m c = false) (hrule : pushDecode c d = .ok t) : d.after (.push c) = t := by
  obtain ⟨⟨hphase, hdir, rfl⟩, rfl, hpad⟩ := h
  rw [after_push_of_decoding ⟨hphase, hdir, rfl⟩, pushFiltered_of_not_dropped (fun _ => hpad) hskip, hrule, settle_ok]

/-- What the FLUSH does when the rule of the mode ends without a fault. -/
theorem after_flush_of_decoding {m : Mode} {d t : State} (hruns : d.runs .decode m) (hrule : flushDecode d = .ok t) :
    d.after .flush = { t with phase := .done } := by
  obtain ⟨hphase, hdir, -⟩ := hruns
  rw [after_flush_of_active hphase, flushRule, hdir, hrule]
  rfl

/-- A decoder that follows the encoder of `m`: `Lag k d lag` says that, with `k` in the encoder's bit packer, the
decoder in state `d` has still to emit the bytes `lag` of what the encoder has taken in. -/
structure Follows (cfg : Config) (m : Mode) (Lag : Packer → State → List Byte → Prop) : Prop where
  start : ∀ d, Reading cfg m (startInvocation .decode m d) → Lag Packer.empty (startInvocation .decode m d) []
  push : ∀ k d lag b, Lag k d lag → ∃ lag',
    Lag (encodePush cfg m b k).left (d.afterPushes (encodePush cfg m b k).units) lag' ∧
      (d.afterPushes (encodePush cfg m b k).units).out ++ lag' = d.out ++ lag ++ [b]
  flush : ∀ k d lag, Lag k d lag → ∃ t,
    (d.afterPushes (encodeFlush cfg m k).units).after .flush = t ∧ t.phase = .done ∧ t.out = d.out ++ lag

theorem Follows.decodes {cfg : Config} {m : Mode} {Lag : Packer → State → List Byte → Prop} (h : Follows cfg m Lag)
    (data : List Byte) {k : Packer} {d : State} {lag : List Byte} (hlag : Lag k d lag) :
    ∃ t, (d.afterPushes (encodeAll cfg m k data).units).after .flush = t ∧ t.phase = .done ∧
      t.out = d.out ++ lag ++ data := by
  induction data generalizing k d lag with
  | nil =>
    rw [List.append_nil]
    exact h.flush k d lag hlag
  | cons b data ih =>
    obtain ⟨lag', hlag', hout⟩ := h.push k d lag b hlag
    obtain ⟨t, ht, hdone, htout⟩ := ih hlag'
    refine ⟨t, ?_, hdone, ?_⟩
    · rw [← ht, ← afterPushes_append]
      rfl
    · rw [htout, hout, List.append_assoc _ [b]]
      rfl

/-- The round trip of a mode, framing included: the decoder starts in the state the encoder leaves. -/
theorem Follows.roundTrip {m : Mode} {s : State} {Lag : Packer → State → List Byte → Prop}
    (h : Follows s.cfg m Lag) (data : List Byte) (hphase : s.phase ≠ .active) (hsep : separatorSkippable s m) :
    ∃ (t u : State) (text : List Byte),
      issue (encodeProgram m data) s = .next t ∧ t.phase = .done ∧ t.out = s.out ++ text ∧
      issue (decodeProgram m text) t = .next u ∧ u.phase = .done ∧ u.out = t.out ++ data := by
  have hended : (s.encoded m data).phase ≠ .active := nofun
  have hwrapped := issue_decodeProgram_insertSeparators hended (m := m)
    (by rwa [encoded_cfg]) s.llen.toNat (encodedText s.cfg m data)
  have hreading : Reading s.cfg m (startInvocation .decode m (s.encoded m data)) :=
    ⟨⟨rfl, rfl, rfl⟩, encoded_cfg s m data, rfl⟩
  obtain ⟨t, ht, hdone, hout⟩ := h.decodes data (h.start _ hreading)
  refine ⟨s.encoded m data, t.withPort [], _, issue_encodeProgram hphase m data, rfl, encoded_out s m data, ?_, hdone,
    ?_⟩
  · rw [hwrapped, issue_decodeProgram hended, ← ht]
    rfl
  · simpa [State.withPort] using hout

end Sys2Proof.Machine
end

section
/-! PROOFS. Round trip of Base02, Base08, Base10 and Base16 (41_radix.md R140, R151). -/

namespace Sys2Proof.Machine

/-- The modes of `radixModes` encode and decode by the two radix rules (40_control.md R114). -/
theorem radixModes_rules {m : Mode} {r w : Nat} (hm : (m, r, w) ∈ radixModes) :
    (∀ cfg b k, encodePush cfg m b k = encodePushRadix cfg r w b k) ∧ (∀ cfg k, encodeFlush cfg m k = ⟨[], k⟩) ∧
      (∀ (s : State) c, s.mode = m → pushDecode c s = radixDecode r w c s) ∧
      (∀ s : State, s.mode = m → flushDecode s = flushDecodeRadix s) := by
  simp only [radixModes, List.mem_cons, Prod.mk.injEq, List.not_mem_nil, or_false] at hm
  rcases hm with h | h | h | h
  all_goals
    obtain ⟨rfl, rfl, rfl⟩ := h
    refine ⟨fun _ _ _ => rfl, fun _ _ => rfl, fun s c hmode => ?_, fun s hmode => ?_⟩
    · rw [pushDecode, hmode]
      rfl
    · rw [flushDecode, hmode]

/-- The radix and width of a radix mode: eight digits at most, at least two, and a byte always fits. -/
theorem radixModes_bounds {m : Mode} {r w : Nat} (hm : (m, r, w) ∈ radixModes) :
    0 < r ∧ 0 < w ∧ w ≤ 8 ∧ 256 ≤ r ^ w := by
  have hall : ∀ row ∈ radixModes, 0 < row.2.1 ∧ 0 < row.2.2 ∧ row.2.2 ≤ 8 ∧ 256 ≤ row.2.1 ^ row.2.2 := by decide
  exact hall _ hm

theorem numeral_succ (r n b : Nat) : numeral r (n + 1) b = b / r ^ n % r :: numeral r n b := by
  simp [numeral, List.range_succ]

section Digits

variable {cfg : Config} (hwf : cfg.wf = true) {m : Mode} {r w : Nat} (hm : (m, r, w) ∈ radixModes)
include hwf hm

/-- A digit inside a group (R151). -/
theorem Reading.after_digit {d : State} (h : Reading cfg m d) {x : Nat} (hx : x < r) (hgroup : d.gcnt.toNat + 1 ≠ w) :
    d.after (.push (digitChar cfg.hexCase x)) =
      { d with acc := BitVec.ofNat 32 (d.acc.toNat * r + x), gcnt := d.gcnt + 1 } := by
  obtain ⟨-, -, hrule, -⟩ := radixModes_rules hm
  obtain ⟨hlt, -⟩ := inAlphabet_digitChar cfg hm hx
  obtain ⟨-, -, hmode⟩ := h.runs
  refine h.after_push (digit_not_skippable hwf hm hx) ?_
  rw [hrule d _ hmode, radixDecode, digitValue_digitChar _ hlt]
  dsimp only
  rw [if_neg (Nat.not_le.mpr hx), if_neg hgroup]

/-- The last digit of a group whose value is a byte (R151). -/
theorem Reading.after_last_digit {d : State} (h : Reading cfg m d) {x : Nat} (hx : x < r)
    (hgroup : d.gcnt.toNat + 1 = w) (hbyte : d.acc.toNat * r + x < 256) :
    d.after (.push (digitChar cfg.hexCase x)) =
      { d with out := d.out ++ [unit (d.acc.toNat * r + x)], acc := 0, gcnt := 0 } := by
  obtain ⟨-, -, hrule, -⟩ := radixModes_rules hm
  obtain ⟨hlt, -⟩ := inAlphabet_digitChar cfg hm hx
  obtain ⟨-, -, hmode⟩ := h.runs
  refine h.after_push (digit_not_skippable hwf hm hx) ?_
  rw [hrule d _ hmode, radixDecode, digitValue_digitChar _ hlt]
  dsimp only
  rw [if_neg (Nat.not_le.mpr hx), if_pos hgroup, if_neg (by omega), Nat.mod_eq_of_lt hbyte]
  rfl

/-- The last `n + 1` digits of a byte's numeral, read after the digits before them. -/
theorem Reading.afterPushes_numeral (b : Byte) (n : Nat) {d : State} (h : Reading cfg m d)
    (hacc : d.acc.toNat = b.toNat / r ^ (n + 1)) (hgcnt : d.gcnt.toNat + (n + 1) = w) :
    d.afterPushes ((numeral r (n + 1) b.toNat).map (digitChar cfg.hexCase)) =
      { d with out := d.out ++ [b], acc := 0, gcnt := 0 } := by
  obtain ⟨hr, -, hw, -⟩ := radixModes_bounds hm
  have hle (j : Nat) : b.toNat / r ^ j < 256 := (Nat.div_le_self _ _).trans_lt b.isLt
  have hdigit (j : Nat) : b.toNat / r ^ (j + 1) * r + b.toNat / r ^ j % r = b.toNat / r ^ j := by
    rw [Nat.pow_succ, ← Nat.div_div_eq_div_mul, Nat.div_add_mod']
  induction n generalizing d with
  | zero =>
    have hvalue : d.acc.toNat * r + b.toNat / r ^ 0 % r = b.toNat := by rw [hacc, hdigit, Nat.pow_zero, Nat.div_one]
    rw [numeral_succ, List.map_cons, afterPushes_cons,
      h.after_last_digit hwf hm (Nat.mod_lt _ hr) hgcnt (by rw [hvalue]; exact b.isLt), hvalue]
    simp [numeral, unit]
  | succ n ih =>
    have hnext : (d.gcnt + 1).toNat = d.gcnt.toNat + 1 := by bv_omega
    have hacc' : (BitVec.ofNat 32 (b.toNat / r ^ (n + 1))).toNat = b.toNat / r ^ (n + 1) :=
      Nat.mod_eq_of_lt ((hle (n + 1)).trans (by decide))
    have hreading : Reading cfg m { d with acc := BitVec.ofNat 32 (b.toNat / r ^ (n + 1)), gcnt := d.gcnt + 1 } :=
      ⟨h.runs, h.cfg_eq, h.padseen⟩
    rw [numeral_succ, List.map_cons, afterPushes_cons, h.after_digit hwf hm (Nat.mod_lt _ hr) (by omega), hacc,
      hdigit, ih hreading hacc' (show (d.gcnt + 1).toNat + (n + 1) = w by omega)]

end Digits

/-- Between two bytes the decoder owes nothing. -/
def RadixLag (cfg : Config) (m : Mode) (_ : Packer) (d : State) (lag : List Byte) : Prop :=
  Reading cfg m d ∧ d.acc = 0 ∧ d.gcnt = 0 ∧ lag = []

theorem radix_follows {cfg : Config} (hwf : cfg.wf = true) {m : Mode} {r w : Nat} (hm : (m, r, w) ∈ radixModes) :
    Follows cfg m (RadixLag cfg m) where
  start _ hreading := ⟨hreading, rfl, rfl, rfl⟩
  push := by
    rintro k d _ b ⟨hreading, hacc, hgcnt, rfl⟩
    obtain ⟨hpush, -⟩ := radixModes_rules hm
    obtain ⟨-, hw, -, hbyte⟩ := radixModes_bounds hm
    obtain ⟨n, rfl⟩ := Nat.exists_eq_add_one.mpr hw
    have hafter := hreading.afterPushes_numeral hwf hm b n
      (by rw [hacc, Nat.div_eq_of_lt (b.isLt.trans_le hbyte)]; rfl) (by simp [hgcnt])
    rw [hpush]
    unfold encodePushRadix
    dsimp only
    rw [hafter]
    exact ⟨[], ⟨⟨hreading.runs, hreading.cfg_eq, hreading.padseen⟩, rfl, rfl, rfl⟩, by simp⟩
  flush := by
    rintro k d _ ⟨hreading, -, -, rfl⟩
    obtain ⟨-, hflush, -, hrule⟩ := radixModes_rules hm
    obtain ⟨-, -, hmode⟩ := hreading.runs
    rw [hflush, afterPushes_nil, after_flush_of_decoding hreading.runs (hrule d hmode)]
    exact ⟨_, rfl, rfl, (List.append_nil _).symm⟩

/-- Settles O56: the decoder emits each byte with the last digit of its numeral. -/
theorem radixRoundTrip : Obligations.RadixRoundTrip := fun _ _ _ data _ hm hphase hwf hsep =>
  (radix_follows hwf hm).roundTrip data hphase hsep

end Sys2Proof.Machine
end

section
/-! PROOFS. Bytes and bits as numbers: what the round trips of Base32, Base85 and Base91 count with. -/

namespace Sys2Proof.Machine

/-! ### Bytes as numbers -/

/-- The number of a list of bytes, the first one lowest. -/
def littleEndian (bs : List Byte) : Nat := Nat.ofDigits 256 (bs.map BitVec.toNat)

/-- The number of a list of bytes, the first one highest. -/
def bigEndian (bs : List Byte) : Nat := littleEndian bs.reverse

@[simp] theorem littleEndian_nil : littleEndian [] = 0 := rfl

theorem littleEndian_cons (b : Byte) (bs : List Byte) : littleEndian (b :: bs) = b.toNat + 256 * littleEndian bs :=
  Nat.ofDigits_cons

theorem mem_map_toNat_lt (bs : List Byte) : ∀ x ∈ bs.map BitVec.toNat, x < 256 := by
  intro x hx
  obtain ⟨b, -, rfl⟩ := List.mem_map.mp hx
  exact b.isLt

theorem littleEndian_lt (bs : List Byte) : littleEndian bs < 256 ^ bs.length := by
  simpa [littleEndian] using Nat.ofDigits_lt_base_pow_length (by decide) (mem_map_toNat_lt bs)

theorem littleEndian_append (bs cs : List Byte) :
    littleEndian (bs ++ cs) = littleEndian bs + 256 ^ bs.length * littleEndian cs := by
  simp [littleEndian, Nat.ofDigits_append]

theorem littleEndian_concat (bs : List Byte) (b : Byte) :
    littleEndian (bs ++ [b]) = littleEndian bs + 256 ^ bs.length * b.toNat := by
  rw [littleEndian_append, littleEndian_cons, littleEndian_nil, Nat.mul_zero, Nat.add_zero]

theorem littleEndian_inj {bs cs : List Byte} (hlength : bs.length = cs.length)
    (h : littleEndian bs = littleEndian cs) : bs = cs := by
  have hmap := Nat.ofDigits_inj_of_len_eq (by decide) (by simpa using hlength) (mem_map_toNat_lt bs)
    (mem_map_toNat_lt cs) h
  exact List.map_injective_iff.mpr (fun _ _ => BitVec.eq_of_toNat_eq) hmap

/-- The first bytes of a number are its low ones. -/
theorem littleEndian_take_drop (bs : List Byte) {q : Nat} (hq : q ≤ bs.length) :
    littleEndian (bs.take q) = littleEndian bs % 256 ^ q ∧ littleEndian (bs.drop q) = littleEndian bs / 256 ^ q := by
  have hlength : (bs.take q).length = q := List.length_take_of_le hq
  have hsplit : littleEndian bs = littleEndian (bs.take q) + 256 ^ q * littleEndian (bs.drop q) := by
    conv_lhs => rw [← List.take_append_drop q bs, littleEndian_append, hlength]
  have hlow : littleEndian (bs.take q) < 256 ^ q := by simpa [hlength] using littleEndian_lt (bs.take q)
  rw [hsplit, Nat.add_mul_mod_self_left, Nat.mod_eq_of_lt hlow, Nat.add_mul_div_left _ _ (Nat.pow_pos (by decide)),
    Nat.div_eq_of_lt hlow, Nat.zero_add]
  exact ⟨rfl, rfl⟩

@[simp] theorem bigEndian_nil : bigEndian [] = 0 := rfl

theorem bigEndian_concat (bs : List Byte) (b : Byte) : bigEndian (bs ++ [b]) = bigEndian bs * 256 + b.toNat := by
  rw [bigEndian, List.reverse_append, List.reverse_singleton, List.singleton_append, littleEndian_cons, bigEndian]
  omega

theorem bigEndian_cons (b : Byte) (bs : List Byte) :
    bigEndian (b :: bs) = b.toNat * 256 ^ bs.length + bigEndian bs := by
  rw [bigEndian, List.reverse_cons, littleEndian_concat, List.length_reverse, bigEndian]
  ring

theorem bigEndian_lt (bs : List Byte) : bigEndian bs < 256 ^ bs.length := by
  simpa [bigEndian] using littleEndian_lt bs.reverse

/-! ### Bits in a register -/

theorem pow256_eq (n : Nat) : 256 ^ n = 2 ^ (8 * n) := (pow_mul 2 8 n).symm

/-- A number has one quotient and one remainder. -/
theorem quotient_remainder_unique {m a a' b b' : Nat} (hb : b < m) (hb' : b' < m) (h : a * m + b = a' * m + b') :
    a = a' ∧ b = b' := by
  have hdiv (x : Nat) {y : Nat} (hy : y < m) : (x * m + y) / m = x ∧ (x * m + y) % m = y := by
    rw [Nat.mul_comm, Nat.mul_add_div (by omega), Nat.mul_add_mod, Nat.div_eq_of_lt hy, Nat.mod_eq_of_lt hy]
    exact ⟨rfl, rfl⟩
  obtain ⟨ha, hr⟩ := hdiv a hb
  obtain ⟨ha', hr'⟩ := hdiv a' hb'
  rw [h] at ha hr
  exact ⟨ha.symm.trans ha', hr.symm.trans hr'⟩

/-- New low bits under `v` ones: `x` of `n` bits goes below. -/
theorem shiftLeft_or_eq_add {v x n : Nat} (hx : x < 2 ^ n) : v <<< n ||| x = v * 2 ^ n + x := by
  rw [← Nat.shiftLeft_add_eq_or_of_lt hx, Nat.shiftLeft_eq]

theorem and_mask_eq_mod (v n : Nat) : v &&& (1 <<< n - 1) = v % 2 ^ n := by
  rw [Nat.one_shiftLeft, Nat.and_two_pow_sub_one_eq_mod]

theorem unit_and_255 (v : Nat) : unit (v &&& 0xFF) = unit v := by
  apply BitVec.eq_of_toNat_eq
  rw [show 0xFF = 2 ^ 8 - 1 from rfl, Nat.and_two_pow_sub_one_eq_mod]
  simp [unit]

theorem mul_add_lt_two_pow {t b i j : Nat} (ht : t < 2 ^ i) (hb : b < 2 ^ j) : t * 2 ^ j + b < 2 ^ (i + j) := by
  rw [← shiftLeft_or_eq_add hb]
  exact shiftLeft_or_lt ht hb

theorem toNat_ofNat_of_lt {w v : Nat} (h : v < 2 ^ w) : (BitVec.ofNat w v).toNat = v :=
  (BitVec.toNat_ofNat v w).trans (Nat.mod_eq_of_lt h)

/-- The bits of a value above the `k` valid ones of `v`. -/
theorem or_shiftLeft_eq_add {v x k : Nat} (hv : v < 2 ^ k) : v ||| x <<< k = v + x * 2 ^ k := by
  rw [Nat.or_comm, shiftLeft_or_eq_add hv, Nat.add_comm]

theorem unit_eq_iff {v : Nat} {b : Byte} : unit v = b ↔ v % 256 = b.toNat := by
  rw [BitVec.toNat_eq, unit, BitVec.toNat_ofNat]

end Sys2Proof.Machine
end

section
/-! PROOFS. Round trip of Base32 (42_base32.md R161 to R167). The bytes the decoder has still to emit, read as a number
with the first byte highest, are the bits in its accumulator followed by the valid bits of the encoder. -/

namespace Sys2Proof.Machine

/-! ### One symbol in the decoder (R164) -/

theorem idx32_tab32 {i : Nat} (hi : i < 32) : idx32 (tab32 i) = some i :=
  (idx32_eq_some_iff_tab32 _ i).mpr ⟨hi, rfl⟩

theorem tab32_ne_padChar {i : Nat} (hi : i < 32) : tab32 i ≠ padChar := by
  intro h
  have hnone : idx32 padChar = none := by decide
  exact Option.some_ne_none i ((idx32_tab32 hi).symm.trans (h ▸ hnone))

section Symbol32

variable {s : State} {i : Nat} (hi : i < 32) (hcnt : s.cnt.toNat ≤ 7) (hacc : s.acc.toNat < 2 ^ s.cnt.toNat)
include hi hcnt hacc

/-- ACC with one more symbol fits in five more bits, and in the register. -/
theorem symbol32_lt : s.acc.toNat * 32 + i < 2 ^ (s.cnt.toNat + 5) ∧ s.acc.toNat * 32 + i < 2 ^ 32 := by
  have hlt : s.acc.toNat * 2 ^ 5 + i < 2 ^ (s.cnt.toNat + 5) := mul_add_lt_two_pow hacc hi
  exact ⟨hlt, hlt.trans_le (Nat.pow_le_pow_right Nat.two_pos (by omega))⟩

/-- Fewer than eight bits: the symbol stays in ACC. -/
theorem pushDecodeBase32_tab32_of_few (hfew : s.cnt.toNat + 5 < 8) :
    pushDecodeBase32 (tab32 i) s =
      .ok { s with acc := BitVec.ofNat 32 (s.acc.toNat * 32 + i), cnt := BitVec.ofNat 6 (s.cnt.toNat + 5) } := by
  obtain ⟨hlt, hreg⟩ := symbol32_lt hi hcnt hacc
  have hcnt5 : (s.cnt + 5).toNat = s.cnt.toNat + 5 := by bv_omega
  have hload : s.acc.toNat <<< 5 ||| i = s.acc.toNat * 32 + i := shiftLeft_or_eq_add hi
  rw [pushDecodeBase32, if_neg (tab32_ne_padChar hi), idx32_tab32 hi]
  dsimp only
  rw [hcnt5, if_neg (by omega), hload]
  simp only [hcnt5, toNat_ofNat_of_lt hreg, and_mask_eq_mod, Nat.mod_eq_of_lt hlt]
  rw [← hcnt5, BitVec.ofNat_toNat, BitVec.setWidth_eq]

/-- Eight bits and more: the top eight are emitted. -/
theorem pushDecodeBase32_tab32_of_byte (hbyte : 8 ≤ s.cnt.toNat + 5) :
    pushDecodeBase32 (tab32 i) s =
      .ok { s with
        out := s.out ++ [unit ((s.acc.toNat * 32 + i) / 2 ^ (s.cnt.toNat + 5 - 8))]
        acc := BitVec.ofNat 32 ((s.acc.toNat * 32 + i) % 2 ^ (s.cnt.toNat + 5 - 8))
        cnt := BitVec.ofNat 6 (s.cnt.toNat + 5 - 8) } := by
  obtain ⟨hlt, hreg⟩ := symbol32_lt hi hcnt hacc
  have hcnt5 : (s.cnt + 5).toNat = s.cnt.toNat + 5 := by bv_omega
  have hload : s.acc.toNat <<< 5 ||| i = s.acc.toNat * 32 + i := shiftLeft_or_eq_add hi
  rw [pushDecodeBase32, if_neg (tab32_ne_padChar hi), idx32_tab32 hi]
  dsimp only
  rw [hcnt5, if_pos hbyte, hload]
  have hleft : (s.cnt + 5 - 8).toNat = s.cnt.toNat + 5 - 8 := by bv_omega
  simp only [emitByte_acc, toNat_ofNat_of_lt hreg, and_mask_eq_mod, unit_and_255, Nat.shiftRight_eq_div_pow, hleft]
  rw [← hleft, BitVec.ofNat_toNat, BitVec.setWidth_eq]
  rfl

end Symbol32

/-! ### The two accumulators (R126) -/

/-- With `acc` in the encoder, of which the low `cnt` bits are valid, the decoder `d` has still to emit `lag`. -/
structure Lag32 (cfg : Config) (acc cnt : Nat) (d : State) (lag : List Byte) : Prop where
  reading : Reading cfg .base32 d
  few : d.cnt.toNat ≤ 7
  length : 8 * lag.length = d.cnt.toNat + cnt
  value : bigEndian lag = d.acc.toNat * 2 ^ cnt + acc % 2 ^ cnt

theorem Lag32.acc_lt {cfg : Config} {acc cnt : Nat} {d : State} {lag : List Byte} (h : Lag32 cfg acc cnt d lag) :
    d.acc.toNat < 2 ^ d.cnt.toNat := by
  have hlt := bigEndian_lt lag
  rw [pow256_eq, h.length, h.value, pow_add] at hlt
  exact Nat.lt_of_mul_lt_mul_right ((Nat.le_add_right _ _).trans_lt hlt)

/-- A byte loaded into the encoder is owed by the decoder. -/
theorem Lag32.load {cfg : Config} {acc cnt : Nat} {d : State} {lag : List Byte} (h : Lag32 cfg acc cnt d lag)
    (b : Byte) : Lag32 cfg (acc * 256 + b.toNat) (cnt + 8) d (lag ++ [b]) where
  reading := h.reading
  few := h.few
  length := by
    rw [List.length_append, List.length_singleton, Nat.mul_add, h.length]
    omega
  value := by
    have hmod : (acc * 256 + b.toNat) % 2 ^ (cnt + 8) = acc % 2 ^ cnt * 256 + b.toNat := by
      have hbyte := b.isLt
      rw [show 2 ^ (cnt + 8) = 256 * 2 ^ cnt by ring, Nat.mod_mul, show (acc * 256 + b.toNat) % 256 = b.toNat by omega,
        show (acc * 256 + b.toNat) / 256 = acc by omega]
      ring
    rw [bigEndian_concat, h.value, hmod, pow_add]
    ring

/-- The first byte owed is on top of the decoder's bits, when they are eight or more. -/
theorem bigEndian_top_byte {r : Byte} {lag : List Byte} {n rest k cnt : Nat} (hlength : 8 * lag.length = k + cnt)
    (hrest : rest < 2 ^ cnt) (hvalue : bigEndian (r :: lag) = n * 2 ^ cnt + rest) :
    r.toNat = n / 2 ^ k ∧ bigEndian lag = n % 2 ^ k * 2 ^ cnt + rest := by
  have hlag := bigEndian_lt lag
  rw [pow256_eq, hlength] at hlag
  rw [bigEndian_cons, pow256_eq, hlength] at hvalue
  refine quotient_remainder_unique hlag (mul_add_lt_two_pow (Nat.mod_lt n (Nat.two_pow_pos k)) hrest) ?_
  rw [hvalue, pow_add]
  conv_lhs => rw [← Nat.div_add_mod' n (2 ^ k)]
  ring

/-- The bytes owed, with the next five valid bits of the encoder moved to the decoder. -/
theorem Lag32.value_of_moved {cfg : Config} {acc cnt : Nat} {d : State} {lag : List Byte}
    (h : Lag32 cfg acc (cnt + 5) d lag) :
    bigEndian lag = (d.acc.toNat * 32 + acc / 2 ^ cnt % 32) * 2 ^ cnt + acc % 2 ^ cnt := by
  rw [h.value, pow_add, Nat.mod_mul, show 2 ^ 5 = 32 from rfl]
  ring

/-- A symbol takes five bits from the encoder to the decoder. -/
theorem Lag32.symbol {cfg : Config} (hwf : cfg.wf = true) {acc cnt : Nat} {d : State} {lag : List Byte}
    (h : Lag32 cfg acc (cnt + 5) d lag) :
    ∃ lag', Lag32 cfg acc cnt (d.after (.push (tab32 ((acc >>> cnt) &&& 31)))) lag' ∧
      (d.after (.push (tab32 ((acc >>> cnt) &&& 31)))).out ++ lag' = d.out ++ lag := by
  have hsymbol : (acc >>> cnt) &&& 31 = acc / 2 ^ cnt % 32 := by
    rw [Nat.shiftRight_eq_div_pow]
    exact Nat.and_two_pow_sub_one_eq_mod _ 5
  have hvalue := h.value_of_moved
  rw [hsymbol]
  generalize hi : acc / 2 ^ cnt % 32 = i at hvalue ⊢
  have hlt : i < 32 := hi ▸ Nat.mod_lt _ (by decide)
  have hlength := h.length
  have hfew := h.few
  obtain ⟨-, -, hmode⟩ := h.reading.runs
  obtain ⟨-, hreg⟩ := symbol32_lt hlt hfew h.acc_lt
  have hpush {t : State} (hrule : pushDecodeBase32 (tab32 i) d = .ok t) : d.after (.push (tab32 i)) = t :=
    h.reading.after_push (tab32_not_skippable hwf hlt) ((pushDecode_of_base32 hmode _).trans hrule)
  by_cases hbits : d.cnt.toNat + 5 < 8
  · rw [hpush (pushDecodeBase32_tab32_of_few hlt hfew h.acc_lt hbits)]
    have hcnt : (BitVec.ofNat 6 (d.cnt.toNat + 5)).toNat = d.cnt.toNat + 5 := toNat_ofNat_of_lt (by omega)
    refine ⟨lag, ⟨⟨h.reading.runs, h.reading.cfg_eq, h.reading.padseen⟩, ?_, ?_, ?_⟩, rfl⟩
    · exact hcnt.trans_le (by omega)
    · exact hlength.trans (by rw [hcnt]; omega)
    · rw [toNat_ofNat_of_lt hreg, hvalue]
  · rw [hpush (pushDecodeBase32_tab32_of_byte hlt hfew h.acc_lt (by omega))]
    generalize hk : d.cnt.toNat + 5 - 8 = k
    have hcnt : (BitVec.ofNat 6 k).toNat = k := toNat_ofNat_of_lt (by omega)
    obtain ⟨r, lag, rfl⟩ := List.exists_cons_of_length_pos (l := lag) (by omega)
    rw [List.length_cons] at hlength
    have hrest : 8 * lag.length = k + cnt := by omega
    obtain ⟨hr, hv⟩ := bigEndian_top_byte hrest (Nat.mod_lt _ (Nat.two_pow_pos cnt)) hvalue
    have hemitted : unit ((d.acc.toNat * 32 + i) / 2 ^ k) = r := ((eq_unit_iff (hr ▸ r.isLt)).mpr hr).symm
    rw [hemitted]
    refine ⟨lag, ⟨⟨h.reading.runs, h.reading.cfg_eq, h.reading.padseen⟩, ?_, ?_, ?_⟩, List.append_assoc _ _ _⟩
    · exact hcnt.trans_le (by omega)
    · exact hrest.trans (by rw [hcnt])
    · rw [toNat_ofNat_of_lt ((Nat.mod_le _ _).trans_lt hreg), hv]

/-- The symbols of a PUSH take all whole groups of five bits. -/
theorem Lag32.symbols {cfg : Config} (hwf : cfg.wf = true) (acc : Nat) (n : Nat) {cnt : Nat} (hcnt : cnt / 5 = n)
    {d : State} {lag : List Byte} (h : Lag32 cfg acc cnt d lag) :
    ∃ lag', Lag32 cfg acc (cnt % 5) (d.afterPushes (symbols32 acc cnt)) lag' ∧
      (d.afterPushes (symbols32 acc cnt)).out ++ lag' = d.out ++ lag := by
  induction n generalizing cnt d lag with
  | zero =>
    have hlt : cnt < 5 := by omega
    rw [symbols32_of_lt hlt, Nat.mod_eq_of_lt hlt]
    exact ⟨lag, h, rfl⟩
  | succ n ih =>
    obtain ⟨cnt, rfl⟩ := Nat.exists_eq_add_of_le' (show 5 ≤ cnt by omega)
    obtain ⟨lag', hlag', hout⟩ := h.symbol hwf
    obtain ⟨lag'', hlag'', hout'⟩ := ih (by omega) hlag'
    rw [symbols32_of_le (by omega), Nat.add_sub_cancel, afterPushes_cons, Nat.add_mod_right]
    exact ⟨lag'', hlag'', hout'.trans hout⟩

/-- The bit packer's registers, as the numbers `Lag32` speaks of. -/
def Base32Lag (cfg : Config) (k : Packer) (d : State) (lag : List Byte) : Prop :=
  k.cnt.toNat < 5 ∧ k.acc.toNat < 2 ^ k.cnt.toNat ∧ Lag32 cfg k.acc.toNat k.cnt.toNat d lag

theorem Base32Lag.push {cfg : Config} (hwf : cfg.wf = true) {k : Packer} {d : State} {lag : List Byte} (b : Byte)
    (h : Base32Lag cfg k d lag) : ∃ lag',
      Base32Lag cfg (encodePush32 b k).left (d.afterPushes (encodePush32 b k).units) lag' ∧
        (d.afterPushes (encodePush32 b k).units).out ++ lag' = d.out ++ lag ++ [b] := by
  obtain ⟨hcnt, hacc, hlag⟩ := h
  have hcnt8 : (k.cnt + 8).toNat = k.cnt.toNat + 8 := by bv_omega
  have hwidth : k.acc.toNat * 256 + b.toNat < 2 ^ 32 :=
    (mul_add_lt_two_pow (j := 8) hacc b.isLt).trans_le (Nat.pow_le_pow_right Nat.two_pos (by omega))
  have hload : (BitVec.ofNat 32 (k.acc.toNat <<< 8 ||| b.toNat)).toNat = k.acc.toNat * 256 + b.toNat := by
    rw [shiftLeft_or_eq_add b.isLt]
    exact toNat_ofNat_of_lt hwidth
  obtain ⟨lag', hlag', hout⟩ := (hlag.load b).symbols hwf _ _ rfl
  have hleft : ((k.cnt.toNat + 8) % 5) < 2 ^ 6 := by omega
  have hmasked : (k.acc.toNat * 256 + b.toNat) % 2 ^ ((k.cnt.toNat + 8) % 5) < 2 ^ 32 :=
    (Nat.mod_le _ _).trans_lt hwidth
  unfold encodePush32
  dsimp only
  rw [hload, hcnt8, and_mask_eq_mod]
  refine ⟨lag', ⟨?_, ?_, ?_⟩, hout.trans (List.append_assoc _ _ _).symm⟩
  · rw [toNat_ofNat_of_lt hleft]
    omega
  · rw [toNat_ofNat_of_lt hleft, toNat_ofNat_of_lt hmasked]
    exact Nat.mod_lt _ (Nat.two_pow_pos _)
  · rw [toNat_ofNat_of_lt hleft, toNat_ofNat_of_lt hmasked]
    exact ⟨hlag'.reading, hlag'.few, hlag'.length, by rw [hlag'.value, Nat.mod_mod]⟩

/-- After the first `=` nothing more is consumed (R165). -/
theorem afterPushes_of_padseen (text : List Byte) {d : State} (hruns : d.runs .decode .base32)
    (hpad : d.padseen = true) : d.afterPushes text = d := by
  have ⟨_, _, hmode⟩ := hruns
  induction text with
  | nil => rfl
  | cons c text ih => rw [afterPushes_cons, after_push_of_decoding hruns, pushFiltered, if_pos ⟨hmode, hpad⟩, ih]

/-- Padding of any length sets PADSEEN and nothing else (R164, R165). -/
theorem Reading.afterPushes_padding {cfg : Config} (hwf : cfg.wf = true) {d : State} (h : Reading cfg .base32 d)
    (n : Nat) : ∃ seen, d.afterPushes (List.replicate n padChar) = { d with padseen := seen } := by
  obtain ⟨-, -, hmode⟩ := h.runs
  cases n with
  | zero => exact ⟨d.padseen, rfl⟩
  | succ n =>
    have hfirst : d.after (.push padChar) = { d with padseen := true } :=
      h.after_push (padChar_not_skippable hwf) (pushDecode_of_base32 hmode padChar)
    rw [List.replicate_succ, afterPushes_cons, hfirst]
    exact ⟨true, afterPushes_of_padseen _ h.runs rfl⟩

/-- A decoder with no bits but zeros ends in DONE, after any padding (R167). -/
theorem Reading.flush_of_acc_zero {cfg : Config} (hwf : cfg.wf = true) {d : State} (h : Reading cfg .base32 d)
    (hacc : d.acc = 0) (n : Nat) : ∃ t,
      (d.afterPushes (List.replicate n padChar)).after .flush = t ∧ t.phase = .done ∧ t.out = d.out := by
  obtain ⟨-, -, hmode⟩ := h.runs
  obtain ⟨seen, hseen⟩ := h.afterPushes_padding hwf n
  have hrule : flushDecode { d with padseen := seen } = .ok { d with padseen := seen, acc := 0, cnt := 0 } :=
    (flushDecode_of_base32 (s := { d with padseen := seen }) hmode).trans (if_neg fun ⟨_, hne⟩ => hne hacc)
  rw [hseen]
  exact ⟨_, after_flush_of_decoding (d := { d with padseen := seen }) h.runs hrule, rfl, rfl⟩

/-- The last, zero-filled symbol brings the byte that is still owed, and no bit but zeros (R163, R167). -/
theorem Lag32.finalSymbol {cfg : Config} (hwf : cfg.wf = true) {acc cnt : Nat} {d : State} {lag : List Byte}
    (h : Lag32 cfg acc cnt d lag) (hpos : 0 < cnt) (hcnt : cnt < 5) (hacc : acc < 2 ^ cnt) :
    ∃ c : BitVec 6, d.after (.push (tab32 ((acc <<< (5 - cnt)) &&& 31))) =
      { d with out := d.out ++ lag, acc := 0, cnt := c } := by
  have hlength := h.length
  have hfew := h.few
  obtain ⟨r, rfl⟩ := List.length_eq_one_iff.mp (show lag.length = 1 by omega)
  rw [List.length_singleton] at hlength
  have hfilled : acc * 2 ^ (5 - cnt) < 32 := by
    have hlt := mul_add_lt_two_pow (b := 0) hacc (Nat.two_pow_pos (5 - cnt))
    rwa [Nat.add_zero, Nat.add_sub_cancel' hcnt.le] at hlt
  have hsymbol : (acc <<< (5 - cnt)) &&& 31 = acc * 2 ^ (5 - cnt) := by
    rw [Nat.shiftLeft_eq, show 31 = 2 ^ 5 - 1 from rfl, Nat.and_two_pow_sub_one_eq_mod, Nat.mod_eq_of_lt hfilled]
  have hvalue : d.acc.toNat * 32 + acc * 2 ^ (5 - cnt) = r.toNat * 2 ^ (5 - cnt) := by
    have hr := h.value
    rw [bigEndian_cons, Nat.mod_eq_of_lt hacc] at hr
    simp only [List.length_nil, pow_zero, Nat.mul_one, bigEndian_nil, Nat.add_zero] at hr
    rw [hr, Nat.add_mul, Nat.mul_assoc, ← pow_add, Nat.add_sub_cancel' hcnt.le]
    rfl
  obtain ⟨-, -, hmode⟩ := h.reading.runs
  refine ⟨BitVec.ofNat 6 (d.cnt.toNat + 5 - 8), h.reading.after_push (tab32_not_skippable hwf (hsymbol ▸ hfilled)) ?_⟩
  rw [pushDecode_of_base32 hmode, hsymbol, pushDecodeBase32_tab32_of_byte hfilled hfew h.acc_lt (by omega), hvalue,
    show d.cnt.toNat + 5 - 8 = 5 - cnt by omega, Nat.mul_div_cancel _ (Nat.two_pow_pos _), Nat.mul_mod_left]
  simp [unit]

theorem Base32Lag.flush {cfg : Config} (hwf : cfg.wf = true) {k : Packer} {d : State} {lag : List Byte}
    (h : Base32Lag cfg k d lag) : ∃ t,
      (d.afterPushes (encodeFlush32 k).units).after .flush = t ∧ t.phase = .done ∧ t.out = d.out ++ lag := by
  obtain ⟨hcnt, hacc, hlag⟩ := h
  have hlength := hlag.length
  have hfew := hlag.few
  unfold encodeFlush32
  split
  · next hpos =>
    obtain ⟨c, hfinal⟩ := hlag.finalSymbol hwf hpos hcnt hacc
    rw [afterPushes_cons, hfinal]
    have hreading : Reading cfg .base32 { d with out := d.out ++ lag, acc := 0, cnt := c } :=
      ⟨hlag.reading.runs, hlag.reading.cfg_eq, hlag.reading.padseen⟩
    exact hreading.flush_of_acc_zero hwf rfl _
  · next hzero =>
    have hnone : lag = [] := List.eq_nil_of_length_eq_zero (by omega)
    have hd : d.acc.toNat < 1 := by
      have hlt := hlag.acc_lt
      rwa [show d.cnt.toNat = 0 by omega] at hlt
    rw [hnone, List.append_nil]
    exact hlag.reading.flush_of_acc_zero hwf (eq_zero_of_toNat_lt_one hd) _

theorem base32_follows {cfg : Config} (hwf : cfg.wf = true) : Follows cfg .base32 (Base32Lag cfg) where
  start _ hreading := ⟨Nat.zero_lt_succ 4, Nat.one_pos, hreading, Nat.zero_le 7, rfl, rfl⟩
  push _ _ _ b h := h.push hwf b
  flush _ _ _ h := h.flush hwf

/-- Settles O57. -/
theorem base32RoundTrip : Obligations.Base32RoundTrip := fun data _ hphase hwf hsep =>
  (base32_follows hwf).roundTrip data hphase hsep

end Sys2Proof.Machine
end

section
/-! PROOFS. Round trip of Base85 (43_base85.md R181 to R189). The decoder sums the digits of a group from the most
significant on, so after some of them it holds the word cut off below the last one; no sum leaves 32 bits. -/

namespace Sys2Proof.Machine

/-! ### Words, their bytes and their digits -/

/-- The four bytes of a word, the highest first. -/
def bytes32 (v : Nat) : List Byte := [unit (v / 2 ^ 24), unit (v / 2 ^ 16), unit (v / 2 ^ 8), unit v]

theorem accBytes_eq_bytes32 (s : State) : accBytes s = bytes32 s.acc.toNat := by
  simp [accBytes, bytes32, unit, BitVec.extractLsb', Nat.shiftRight_eq_div_pow]

/-- The bytes that are the whole top of a word are its first bytes. -/
theorem take_bytes32 {lag : List Byte} {v : Nat} (hlength : lag.length ≤ 4)
    (hv : v / 256 ^ (4 - lag.length) = bigEndian lag) : (bytes32 v).take lag.length = lag := by
  have hlt (b : Byte) : b.toNat < 256 := b.isLt
  match lag, hlength with
  | [], _ => rfl
  | [a], _ =>
    have := hlt a
    simp [bigEndian_cons, bytes32, unit_eq_iff] at hv ⊢
    omega
  | [a, b], _ =>
    have := hlt a
    have := hlt b
    simp [bigEndian_cons, bytes32, unit_eq_iff] at hv ⊢
    omega
  | [a, b, c], _ =>
    have := hlt a
    have := hlt b
    have := hlt c
    simp [bigEndian_cons, bytes32, unit_eq_iff] at hv ⊢
    omega
  | [a, b, c, e], _ =>
    have := hlt a
    have := hlt b
    have := hlt c
    have := hlt e
    simp [bigEndian_cons, bytes32, unit_eq_iff] at hv ⊢
    omega

/-- The word cut off below its digit number `n` (from 1, the most significant first). -/
def cutOff85 (w n : Nat) : Nat := w / 85 ^ (5 - n) * 85 ^ (5 - n)

theorem cutOff85_le (w n : Nat) : cutOff85 w n ≤ w := Nat.div_mul_le_self _ _

/-- One more digit. -/
theorem cutOff85_succ (w : Nat) {n : Nat} (hn : n ≤ 4) :
    cutOff85 w n + w / pow85 n % 85 * pow85 n = cutOff85 w (n + 1) := by
  have hpow : 85 ^ (5 - n) = pow85 n * 85 := by rw [pow85, ← pow_succ, show 4 - n + 1 = 5 - n by omega]
  have hnext : 85 ^ (5 - (n + 1)) = pow85 n := by rw [pow85, show 5 - (n + 1) = 4 - n by omega]
  rw [cutOff85, cutOff85, hpow, hnext, ← Nat.div_div_eq_div_mul]
  conv_rhs => rw [← Nat.div_add_mod' (w / pow85 n) 85]
  ring

/-- The decoder `d` after the first `n` digits of the word `w`. -/
def State.summed85 (d : State) (w n : Nat) : State :=
  { d with acc := BitVec.ofNat 32 (cutOff85 w n), gcnt := BitVec.ofNat 3 n }

theorem toNat_summed85_acc (d : State) {w : Nat} (hw : w < 2 ^ 32) (n : Nat) :
    (d.summed85 w n).acc.toNat = cutOff85 w n := toNat_ofNat_of_lt ((cutOff85_le w n).trans_lt hw)

theorem toNat_summed85_gcnt (d : State) (w : Nat) {n : Nat} (hn : n ≤ 4) : (d.summed85 w n).gcnt.toNat = n :=
  toNat_ofNat_of_lt (by omega)

theorem Reading.summed85 {cfg : Config} {d : State} (h : Reading cfg .base85 d) (w n : Nat) :
    Reading cfg .base85 (d.summed85 w n) := ⟨h.runs, h.cfg_eq, h.padseen⟩

theorem take_digits85 (w : Nat) {n : Nat} (hn : n ≤ 5) :
    (digits85 w).take n = (List.range n).map fun k => w / pow85 k % 85 := by
  rw [digits85, ← List.map_take, List.take_range, Nat.min_eq_left hn]

/-! ### Digits in the decoder (R185, R186) -/

theorem assignAcc85_of_lt {v : Nat} (h : v < 2 ^ 32) (c : Byte) (s : State) :
    assignAcc85 v c s = .ok { s with acc := BitVec.ofNat 32 v } :=
  if_neg fun ⟨hle, _⟩ => Nat.not_le.mpr h hle

/-- A digit whose sum stays in 32 bits: the last one of a group brings its four bytes. -/
theorem pushDecodeBase85_char85 {s : State} {x : Nat} (hx : x < 85)
    (hsum : s.acc.toNat + x * pow85 s.gcnt.toNat < 2 ^ 32) :
    pushDecodeBase85 (char85 x) s =
      if s.gcnt + 1 = 5 then
        .ok { s with out := s.out ++ bytes32 (s.acc.toNat + x * pow85 s.gcnt.toNat), acc := 0, gcnt := 0 }
      else .ok { s with acc := BitVec.ofNat 32 (s.acc.toNat + x * pow85 s.gcnt.toNat), gcnt := s.gcnt + 1 } := by
  have hvalue : value85 (char85 x) = some x := (value85_eq_some_iff_char85 _ x).mpr ⟨hx, rfl⟩
  have hz : char85 x ≠ zChar := by
    intro h
    have hnone : value85 zChar = none := by decide
    exact Option.some_ne_none x (hvalue.symm.trans (h ▸ hnone))
  rw [pushDecodeBase85, if_neg hz, hvalue]
  dsimp only
  rw [assignAcc85_of_lt hsum]
  dsimp only
  rw [accBytes_eq_bytes32, emitBytes_eq]
  dsimp only
  rw [toNat_ofNat_of_lt hsum]

/-- The tail of a group whose padded sum stays in 32 bits (R188). -/
theorem flushDecodeBase85_of_tail {s : State} (hlow : 2 ≤ s.gcnt.toNat) (hhigh : s.gcnt.toNat ≤ 4)
    (hsum : s.acc.toNat + pow85 (s.gcnt.toNat - 1) < 2 ^ 32) :
    flushDecodeBase85 s = .ok { s with
      out := s.out ++ (bytes32 (s.acc.toNat + pow85 (s.gcnt.toNat - 1))).take (s.gcnt.toNat - 1)
      acc := 0, gcnt := 0 } := by
  rw [flushDecodeBase85, if_neg (by bv_omega), if_pos hlow, assignAcc85_of_lt hsum]
  dsimp only
  rw [accBytes_eq_bytes32, emitBytes_eq]
  dsimp only
  rw [toNat_ofNat_of_lt hsum, Nat.min_eq_left (by omega)]

section Digit85

variable {cfg : Config} (hwf : cfg.wf = true) {d : State} (h : Reading cfg .base85 d)
include hwf h

theorem Reading.after_digit85 {x : Nat} (hx : x < 85) (hgcnt : d.gcnt.toNat < 4)
    (hsum : d.acc.toNat + x * pow85 d.gcnt.toNat < 2 ^ 32) :
    d.after (.push (char85 x)) =
      { d with acc := BitVec.ofNat 32 (d.acc.toNat + x * pow85 d.gcnt.toNat), gcnt := d.gcnt + 1 } := by
  obtain ⟨-, -, hmode⟩ := h.runs
  refine h.after_push (char85_not_skippable hwf hx) ?_
  rw [pushDecode_of_base85 hmode, pushDecodeBase85_char85 hx hsum, if_neg (by bv_omega)]

theorem Reading.after_last_digit85 {x : Nat} (hx : x < 85) (hgcnt : d.gcnt = 4) (hsum : d.acc.toNat + x < 2 ^ 32) :
    d.after (.push (char85 x)) =
      { d with out := d.out ++ bytes32 (d.acc.toNat + x), acc := 0, gcnt := 0 } := by
  obtain ⟨-, -, hmode⟩ := h.runs
  have hplace : d.acc.toNat + x * pow85 d.gcnt.toNat = d.acc.toNat + x := by
    rw [hgcnt]
    exact congrArg _ (Nat.mul_one x)
  refine h.after_push (char85_not_skippable hwf hx) ?_
  rw [pushDecode_of_base85 hmode, pushDecodeBase85_char85 hx (hplace ▸ hsum), hplace, if_pos (by rw [hgcnt]; rfl)]

/-- The first digits of a word, up to four of them, at the start of a group. -/
theorem Reading.afterPushes_digits85 (hacc : d.acc = 0) (hgcnt : d.gcnt = 0) {w : Nat} (hw : w < 2 ^ 32) {n : Nat}
    (hn : n ≤ 4) :
    d.afterPushes (((digits85 w).take n).map char85) = d.summed85 w n := by
  rw [take_digits85 w (by omega)]
  induction n with
  | zero =>
    have hstart : cutOff85 w 0 = 0 := by rw [cutOff85, Nat.div_eq_of_lt (hw.trans (by decide)), Nat.zero_mul]
    rw [State.summed85, hstart, ← BitVec.ofNat_eq_ofNat, ← BitVec.ofNat_eq_ofNat, ← hacc, ← hgcnt]
    rfl
  | succ n ih =>
    have hgcnt' := toNat_summed85_gcnt d w (n := n) (by omega)
    have hsum : (d.summed85 w n).acc.toNat + w / pow85 n % 85 * pow85 (d.summed85 w n).gcnt.toNat =
        cutOff85 w (n + 1) := by
      rw [toNat_summed85_acc d hw, hgcnt', cutOff85_succ w (by omega)]
    rw [List.range_succ, List.map_append, List.map_append, afterPushes_append, ih (by omega)]
    refine ((h.summed85 w n).after_digit85 hwf (Nat.mod_lt _ (by decide)) (by omega)
      (hsum ▸ (cutOff85_le w _).trans_lt hw)).trans ?_
    have hnext : BitVec.ofNat 3 n + 1 = BitVec.ofNat 3 (n + 1) := (BitVec.ofNat_add n 1).symm
    rw [hsum]
    exact congrArg (fun g => { d with acc := BitVec.ofNat 32 (cutOff85 w (n + 1)), gcnt := g }) hnext

/-- A whole group gives the bytes of its word. -/
theorem Reading.afterPushes_group85 (hacc : d.acc = 0) (hgcnt : d.gcnt = 0) {w : Nat} (hw : w < 2 ^ 32) :
    d.afterPushes ((digits85 w).map char85) = { d with out := d.out ++ bytes32 w } := by
  have hwhole : digits85 w = (digits85 w).take 4 ++ [w % 85] := by simp [digits85, pow85, List.range_succ]
  have hsum : (d.summed85 w 4).acc.toNat + w % 85 = w := by
    rw [toNat_summed85_acc d hw]
    simpa [pow85, cutOff85] using cutOff85_succ w (n := 4) le_rfl
  rw [hwhole, List.map_append, afterPushes_append, h.afterPushes_digits85 hwf hacc hgcnt hw le_rfl]
  refine ((h.summed85 w 4).after_last_digit85 hwf (Nat.mod_lt _ (by decide)) rfl (hsum.symm ▸ hw)).trans ?_
  rw [hsum, ← hacc, ← hgcnt]
  rfl

/-- The shorthand for a zero word (R185). -/
theorem Reading.after_z85 (hgcnt : d.gcnt = 0) : d.after (.push zChar) = { d with out := d.out ++ bytes32 0 } := by
  obtain ⟨-, -, hmode⟩ := h.runs
  refine h.after_push (zChar_not_skippable hwf) ?_
  rw [pushDecode_of_base85 hmode, pushDecodeBase85, if_pos rfl, if_pos hgcnt, emitBytes_eq]
  rfl

/-- What the encoder writes for a whole group gives the bytes of the word (R182). -/
theorem Reading.afterPushes_word85 (hacc : d.acc = 0) (hgcnt : d.gcnt = 0) (word : BitVec 32) :
    d.afterPushes (if word = 0 then [zChar] else (digits85 word.toNat).map char85) =
      { d with out := d.out ++ bytes32 word.toNat } := by
  split
  · next hzero =>
    rw [hzero]
    exact h.after_z85 hwf hgcnt
  · exact h.afterPushes_group85 hwf hacc hgcnt word.isLt

end Digit85

/-! ### The encoder's group (R182, R183) -/

/-- Between groups the decoder is empty, and it owes the bytes of the group the encoder has begun. -/
structure Lag85 (cfg : Config) (k : Packer) (d : State) (lag : List Byte) : Prop where
  reading : Reading cfg .base85 d
  acc : d.acc = 0
  gcnt : d.gcnt = 0
  few : lag.length ≤ 3
  counted : k.gcnt.toNat = lag.length
  value : k.acc.toNat = bigEndian lag

theorem Lag85.push {cfg : Config} (hwf : cfg.wf = true) {k : Packer} {d : State} {lag : List Byte} (b : Byte)
    (h : Lag85 cfg k d lag) : ∃ lag',
      Lag85 cfg (encodePush85 b k).left (d.afterPushes (encodePush85 b k).units) lag' ∧
        (d.afterPushes (encodePush85 b k).units).out ++ lag' = d.out ++ lag ++ [b] := by
  have hword : bigEndian (lag ++ [b]) < 256 ^ (lag.length + 1) := by simpa using bigEndian_lt (lag ++ [b])
  have hreg : bigEndian (lag ++ [b]) < 2 ^ 32 :=
    hword.trans_le ((Nat.pow_le_pow_right (by decide) (Nat.succ_le_succ h.few)).trans (by decide))
  have hload : (BitVec.ofNat 32 (k.acc.toNat <<< 8 ||| b.toNat)).toNat = bigEndian (lag ++ [b]) := by
    rw [shiftLeft_or_eq_add b.isLt, h.value, ← toNat_ofNat_of_lt hreg, bigEndian_concat]
    rfl
  have hfew := h.few
  have hcounted := h.counted
  unfold encodePush85
  dsimp only
  split
  · next hfour =>
    have hlength : (lag ++ [b]).length = 4 := by
      rw [List.length_append, List.length_singleton]
      bv_omega
    have hbytes : bytes32 (bigEndian (lag ++ [b])) = lag ++ [b] := by
      have htake := take_bytes32 hlength.le (by rw [hlength, Nat.sub_self, pow_zero, Nat.div_one])
      rwa [hlength] at htake
    rw [h.reading.afterPushes_word85 hwf h.acc h.gcnt, hload, hbytes]
    refine ⟨[], ⟨⟨h.reading.runs, h.reading.cfg_eq, h.reading.padseen⟩, h.acc, h.gcnt, Nat.zero_le 3, rfl, rfl⟩, ?_⟩
    rw [List.append_nil, List.append_assoc]
  · next hmore =>
    refine ⟨lag ++ [b], ⟨h.reading, h.acc, h.gcnt, ?_, ?_, hload⟩, (List.append_assoc _ _ _).symm⟩
    · rw [List.length_append, List.length_singleton]
      bv_omega
    · rw [List.length_append, List.length_singleton]
      show (k.gcnt + 1).toNat = _
      bv_omega

theorem tail_word_lt {lag : List Byte} (hfew : lag.length ≤ 3) :
    bigEndian lag * 256 ^ (4 - lag.length) + 256 ^ (4 - lag.length) ≤ 2 ^ 32 :=
  calc bigEndian lag * 256 ^ (4 - lag.length) + 256 ^ (4 - lag.length)
      = (bigEndian lag + 1) * 256 ^ (4 - lag.length) := (Nat.succ_mul _ _).symm
    _ ≤ 256 ^ lag.length * 256 ^ (4 - lag.length) := Nat.mul_le_mul_right _ (bigEndian_lt lag)
    _ = 2 ^ 32 := by rw [← pow_add, Nat.add_sub_cancel' (by omega)]; rfl

/-- The cut-off word with the implicit pad has the bytes of the tail on top (R189). -/
theorem cutOff85_pad {lag : List Byte} (hfew : lag.length ≤ 3) :
    (cutOff85 (bigEndian lag * 256 ^ (4 - lag.length)) (lag.length + 1) + pow85 lag.length) /
        256 ^ (4 - lag.length) = bigEndian lag ∧
      cutOff85 (bigEndian lag * 256 ^ (4 - lag.length)) (lag.length + 1) + pow85 lag.length < 2 ^ 32 := by
  have hreg := tail_word_lt hfew
  have hpow : 85 ^ (4 - lag.length) < 256 ^ (4 - lag.length) := Nat.pow_lt_pow_left (by decide) (by omega)
  rw [cutOff85, show 5 - (lag.length + 1) = 4 - lag.length by omega, pow85, Nat.div_eq_iff (Nat.pow_pos (by decide))]
  have hcut := Nat.div_add_mod' (bigEndian lag * 256 ^ (4 - lag.length)) (85 ^ (4 - lag.length))
  have hrest := Nat.mod_lt (bigEndian lag * 256 ^ (4 - lag.length))
    (Nat.pow_pos (n := 4 - lag.length) (by decide : 0 < 85))
  omega

theorem Lag85.flush {cfg : Config} (hwf : cfg.wf = true) {k : Packer} {d : State} {lag : List Byte}
    (h : Lag85 cfg k d lag) : ∃ t,
      (d.afterPushes (encodeFlush85 k).units).after .flush = t ∧ t.phase = .done ∧ t.out = d.out ++ lag := by
  have hfew := h.few
  have hcounted := h.counted
  obtain ⟨-, -, hmode⟩ := h.reading.runs
  unfold encodeFlush85
  split
  · next hpos =>
    obtain ⟨htop, hreg⟩ := cutOff85_pad hfew
    have htake := take_bytes32 (by omega) htop
    have hword : k.acc.toNat <<< (8 * (4 - k.gcnt.toNat)) = bigEndian lag * 256 ^ (4 - lag.length) := by
      rw [Nat.shiftLeft_eq, h.value, hcounted, pow256_eq]
    have hlt : bigEndian lag * 256 ^ (4 - lag.length) < 2 ^ 32 :=
      Nat.lt_of_lt_of_le (Nat.lt_add_of_pos_right (Nat.pow_pos (by decide))) (tail_word_lt hfew)
    generalize bigEndian lag * 256 ^ (4 - lag.length) = w at hword hlt hreg htake
    have hgcnt := toNat_summed85_gcnt d w (n := lag.length + 1) (by omega)
    have hacc := toNat_summed85_acc d hlt (lag.length + 1)
    have hrule := flushDecodeBase85_of_tail (s := d.summed85 w (lag.length + 1)) (by omega) (by omega)
      (by rwa [hacc, hgcnt, Nat.add_sub_cancel])
    rw [hacc, hgcnt, Nat.add_sub_cancel, htake,
      ← flushDecode_of_base85 (s := d.summed85 w (lag.length + 1)) hmode] at hrule
    rw [hword, hcounted, h.reading.afterPushes_digits85 hwf h.acc h.gcnt hlt (by omega)]
    exact ⟨_, after_flush_of_decoding (h.reading.summed85 w _).runs hrule, rfl, rfl⟩
  · next hzero =>
    have hnone : lag = [] := List.eq_nil_of_length_eq_zero (by omega)
    have hrule : flushDecode d = .ok d := by
      rw [flushDecode_of_base85 hmode, flushDecodeBase85, if_neg (by rw [h.gcnt]; decide),
        if_neg (by rw [h.gcnt]; decide)]
    rw [afterPushes_nil, hnone, List.append_nil]
    exact ⟨_, after_flush_of_decoding h.reading.runs hrule, rfl, rfl⟩

theorem base85_follows {cfg : Config} (hwf : cfg.wf = true) : Follows cfg .base85 (Lag85 cfg) where
  start _ hreading := ⟨hreading, rfl, rfl, Nat.zero_le 3, rfl, rfl⟩
  push _ _ _ b h := h.push hwf b
  flush _ _ _ h := h.flush hwf

/-- Settles O58: the sums of the decoder never pass the word they come from, so B85_OVERFLOW is not reached. -/
theorem base85RoundTrip : Obligations.Base85RoundTrip := fun data _ hphase hwf hsep =>
  (base85_follows hwf).roundTrip data hphase hsep

end Sys2Proof.Machine
end

section
/-! PROOFS. Round trip of Base91 (44_base91.md R200 to R208). The bytes the decoder has still to emit, read as a number
with the first byte lowest, are the bits in its accumulator and above them the valid bits of the encoder. -/

namespace Sys2Proof.Machine

/-! ### A pair of symbols in the decoder (R204) -/

/-- The loop of R204 writes the whole bytes of ACC, the low one first. -/
theorem drainBytes91_units (fuel : Nat) (s : State) (h : s.cnt.toNat ≤ fuel) :
    ∃ units, drainBytes91 fuel s = s.drained91 units ∧ units.length = s.cnt.toNat / 8 ∧
      littleEndian units = s.acc.toNat % 256 ^ (s.cnt.toNat / 8) := by
  induction fuel generalizing s with
  | zero =>
    have hnone : s.cnt.toNat / 8 = 0 := by omega
    refine ⟨[], (drained91_of_lt (s := s) (by omega)).symm, hnone.symm, ?_⟩
    rw [hnone, pow_zero, Nat.mod_one]
    rfl
  | succ fuel ih =>
    unfold drainBytes91
    split
    · next hbyte =>
      have hacc : BitVec.ofNat 32 (s.acc.toNat >>> 8) = s.acc >>> 8 := by
        rw [← BitVec.toNat_ushiftRight, BitVec.ofNat_toNat, BitVec.setWidth_eq]
      simp only [emitByte_acc, emitByte_cnt, hacc]
      have hcnt : (s.cnt - 8).toNat = s.cnt.toNat - 8 := by bv_omega
      obtain ⟨units, hunits, hlength, hvalue⟩ := ih { s.emitByte (unit (s.acc.toNat &&& 0xFF)) with
        acc := s.acc >>> 8, cnt := s.cnt - 8 } (show (s.cnt - 8).toNat ≤ fuel by omega)
      have hbytes : s.cnt.toNat / 8 = (s.cnt - 8).toNat / 8 + 1 := by omega
      refine ⟨_, hunits.trans (drained91_cons hbyte _ units), ?_, ?_⟩
      · rw [List.length_cons, hlength, hbytes]
      · have hlow : (unit (s.acc.toNat &&& 0xFF)).toNat = s.acc.toNat % 256 := by
          rw [unit_and_255]
          rfl
        have hhigh : (s.acc >>> 8).toNat = s.acc.toNat / 256 := by
          rw [BitVec.toNat_ushiftRight, Nat.shiftRight_eq_div_pow]
        rw [littleEndian_cons, hvalue, hlow, hbytes, pow_succ', Nat.mod_mul]
        dsimp only
        rw [hhigh]
    · next hfew =>
      have hnone : s.cnt.toNat / 8 = 0 := by omega
      refine ⟨[], (drained91_of_lt (by omega)).symm, hnone.symm, ?_⟩
      rw [hnone, pow_zero, Nat.mod_one]
      rfl

theorem toNat_pairLoaded91_cnt {s : State} (h : s.cnt.toNat ≤ 7) (d : Nat) :
    (s.pairLoaded91 d).cnt.toNat = s.cnt.toNat + payloadBits (s.pend.toNat + d * 91) := by
  show (s.cnt + BitVec.ofNat 6 (payloadBits (s.pend.toNat + d * 91))).toNat = _
  obtain hn | hn := payloadBits_cases (s.pend.toNat + d * 91)
  · rw [hn]
    bv_omega
  · rw [hn]
    bv_omega

/-- The two uses of a symbol: the second of a pair, or the first (R204). -/
theorem pushDecodeBase91_of_idx91 {s : State} {c : Byte} {i : Nat} (hidx : idx91 s.cfg c = some i) :
    pushDecodeBase91 c s =
      if s.pendv then .ok (drainBytes91 (s.pairLoaded91 i).cnt.toNat (s.pairLoaded91 i))
      else .ok { s with pend := BitVec.ofNat 7 i, pendv := true } := by
  rw [pushDecodeBase91, hidx]
  rfl

/-- `d` with the first symbol `i` of a pair held. -/
def State.held91 (d : State) (i : Nat) : State := { d with pend := BitVec.ofNat 7 i, pendv := true }

/-- `d` after a pair of symbols for the value `v` that has brought the bytes `units`. -/
def State.paired91 (d : State) (v : Nat) (units : List Byte) : State :=
  { d with
    out := d.out ++ units, pend := 0, pendv := false
    acc := BitVec.ofNat 32 ((d.acc.toNat + v * 2 ^ d.cnt.toNat) / 256 ^ ((d.cnt.toNat + payloadBits v) / 8))
    cnt := BitVec.ofNat 6 ((d.cnt.toNat + payloadBits v) % 8) }

section Pair91

variable {cfg : Config} (hwf : cfg.wf = true) {d : State} (h : Reading cfg .base91 d)
include hwf h

theorem Reading.after_first91 (hpendv : d.pendv = false) {i : Nat} (hi : i < 91) :
    d.after (.push (tab91 cfg i)) = d.held91 i := by
  obtain ⟨-, -, hmode⟩ := h.runs
  have hidx : idx91 d.cfg (tab91 cfg i) = some i := by rw [h.cfg_eq, idx91_tab91 hwf hi]
  refine h.after_push (tab91_not_skippable hwf hi) ?_
  rw [pushDecode_of_base91 hmode, pushDecodeBase91_of_idx91 hidx, if_neg (by rw [hpendv]; decide)]
  rfl

/-- A second symbol loads the value of the pair, and the loop writes the whole bytes. -/
theorem Reading.after_second91 (hpendv : d.pendv = true) {i : Nat} (hi : i < 91) :
    d.after (.push (tab91 cfg i)) = drainBytes91 (d.pairLoaded91 i).cnt.toNat (d.pairLoaded91 i) := by
  obtain ⟨-, -, hmode⟩ := h.runs
  have hidx : idx91 d.cfg (tab91 cfg i) = some i := by rw [h.cfg_eq, idx91_tab91 hwf hi]
  refine h.after_push (tab91_not_skippable hwf hi) ?_
  rw [pushDecode_of_base91 hmode, pushDecodeBase91_of_idx91 hidx, if_pos hpendv]

/-- A pair of symbols whose value is `v` brings the whole bytes of ACC with `v` above its valid bits. -/
theorem Reading.afterPushes_pair91 (hpendv : d.pendv = false) (hcnt : d.cnt.toNat ≤ 7)
    (hacc : d.acc.toNat < 2 ^ d.cnt.toNat) {v : Nat} (hv : v < 8281) :
    ∃ units : List Byte, d.afterPushes [tab91 cfg (v % 91), tab91 cfg (v / 91)] = d.paired91 v units ∧
      units.length = (d.cnt.toNat + payloadBits v) / 8 ∧
      littleEndian units =
        (d.acc.toNat + v * 2 ^ d.cnt.toNat) % 256 ^ ((d.cnt.toNat + payloadBits v) / 8) := by
  have hpair : (d.held91 (v % 91)).pend.toNat + v / 91 * 91 = v := by
    rw [State.held91, toNat_ofNat_of_lt (by omega)]
    omega
  have hbits : d.acc.toNat + v * 2 ^ d.cnt.toNat < 2 ^ 32 := by
    have hlt := or_shiftLeft_lt hacc (show v < 2 ^ 14 by omega)
    rw [or_shiftLeft_eq_add hacc] at hlt
    exact hlt.trans_le (Nat.pow_le_pow_right Nat.two_pos (by omega))
  have hcnt1 : ((d.held91 (v % 91)).pairLoaded91 (v / 91)).cnt.toNat = d.cnt.toNat + payloadBits v := by
    rw [toNat_pairLoaded91_cnt (s := d.held91 (v % 91)) hcnt, hpair]
    rfl
  have hacc1 : ((d.held91 (v % 91)).pairLoaded91 (v / 91)).acc.toNat = d.acc.toNat + v * 2 ^ d.cnt.toNat := by
    rw [State.pairLoaded91, hpair]
    have hload : d.acc.toNat ||| v <<< d.cnt.toNat = d.acc.toNat + v * 2 ^ d.cnt.toNat := or_shiftLeft_eq_add hacc
    exact (toNat_ofNat_of_lt (hload.trans_lt hbits)).trans hload
  have hheld : Reading cfg .base91 (d.held91 (v % 91)) := ⟨h.runs, h.cfg_eq, h.padseen⟩
  obtain ⟨units, hdrain, hlength, hvalue⟩ :=
    drainBytes91_units _ ((d.held91 (v % 91)).pairLoaded91 (v / 91)) le_rfl
  rw [hcnt1] at hlength
  rw [hcnt1, hacc1] at hvalue
  have hleft : ((d.held91 (v % 91)).pairLoaded91 (v / 91)).acc >>> (8 * ((d.cnt.toNat + payloadBits v) / 8)) =
      (d.paired91 v units).acc := by
    apply BitVec.eq_of_toNat_eq
    rw [BitVec.toNat_ushiftRight, hacc1, Nat.shiftRight_eq_div_pow, ← pow256_eq]
    exact (toNat_ofNat_of_lt ((Nat.div_le_self _ _).trans_lt hbits)).symm
  refine ⟨units, ?_, hlength, hvalue⟩
  rw [afterPushes_cons, afterPushes_cons, afterPushes_nil, h.after_first91 hwf hpendv (Nat.mod_lt _ (by decide)),
    hheld.after_second91 hwf rfl (by omega), hdrain, State.drained91, hcnt1, hleft]
  rfl

end Pair91

/-! ### The encoder's chunks (R200, R201) -/

/-- The two symbols of a chunk stand for its value, and a decoder reads as many bits from them as went in. -/
theorem payload_chunk (x : Nat) :
    x % 2 ^ payloadBits x < 8281 ∧ payloadBits (x % 2 ^ payloadBits x) = payloadBits x := by
  have hlow : payloadBits x = if 88 < x % 8192 then 13 else 14 := by
    rw [payloadBits, show 8191 = 2 ^ 13 - 1 from rfl, Nat.and_two_pow_sub_one_eq_mod]
  rw [hlow]
  split <;>
    · rw [payloadBits, show 8191 = 2 ^ 13 - 1 from rfl, Nat.and_two_pow_sub_one_eq_mod]
      split_ifs <;> omega

/-- With `acc` in the encoder, `cnt` bits of it valid, the decoder `d` has still to emit `lag`. -/
structure Lag91 (cfg : Config) (acc cnt : Nat) (d : State) (lag : List Byte) : Prop where
  reading : Reading cfg .base91 d
  pendv : d.pendv = false
  few : d.cnt.toNat ≤ 7
  fits : d.acc.toNat < 2 ^ d.cnt.toNat
  length : 8 * lag.length = d.cnt.toNat + cnt
  value : littleEndian lag = d.acc.toNat + acc * 2 ^ d.cnt.toNat

theorem Lag91.acc_lt {cfg : Config} {acc cnt : Nat} {d : State} {lag : List Byte} (h : Lag91 cfg acc cnt d lag) :
    acc < 2 ^ cnt := by
  have hlt := littleEndian_lt lag
  rw [pow256_eq, h.length, h.value, Nat.add_comm d.cnt.toNat, pow_add] at hlt
  exact Nat.lt_of_mul_lt_mul_right ((Nat.le_add_left _ _).trans_lt hlt)

/-- A byte loaded into the encoder is owed by the decoder. -/
theorem Lag91.load {cfg : Config} {acc cnt : Nat} {d : State} {lag : List Byte} (h : Lag91 cfg acc cnt d lag)
    (b : Byte) : Lag91 cfg (acc + b.toNat * 2 ^ cnt) (cnt + 8) d (lag ++ [b]) where
  reading := h.reading
  pendv := h.pendv
  few := h.few
  fits := h.fits
  length := by
    rw [List.length_append, List.length_singleton, Nat.mul_add, h.length]
    omega
  value := by
    rw [littleEndian_concat, h.value, pow256_eq, h.length, pow_add]
    ring

/-- The whole bytes among `K` low bits, and what they leave. -/
theorem littleEndian_split {lag : List Byte} {M y K : Nat} (hK : K / 8 ≤ lag.length)
    (h : littleEndian lag = M + y * 2 ^ K) :
    littleEndian (lag.take (K / 8)) = M % 256 ^ (K / 8) ∧
      littleEndian (lag.drop (K / 8)) = M / 256 ^ (K / 8) + y * 2 ^ (K % 8) := by
  have hbits : y * 2 ^ K = y * 2 ^ (K % 8) * 256 ^ (K / 8) := by
    rw [pow256_eq, Nat.mul_assoc, ← pow_add, Nat.mod_add_div]
  obtain ⟨htake, hdrop⟩ := littleEndian_take_drop lag hK
  rw [htake, hdrop, h, hbits, Nat.add_mul_mod_self_right, Nat.add_mul_div_right _ _ (Nat.pow_pos (by decide))]
  exact ⟨rfl, rfl⟩

/-- The bytes owed, with the low `n` bits of the encoder moved to the decoder. -/
theorem Lag91.value_of_moved {cfg : Config} {acc cnt : Nat} {d : State} {lag : List Byte}
    (h : Lag91 cfg acc cnt d lag) (n : Nat) :
    littleEndian lag =
      d.acc.toNat + acc % 2 ^ n * 2 ^ d.cnt.toNat + acc / 2 ^ n * 2 ^ (d.cnt.toNat + n) := by
  rw [h.value, pow_add]
  conv_lhs => rw [← Nat.div_add_mod' acc (2 ^ n)]
  ring

/-- A chunk of the encoder, its low 13 or 14 bits, goes to the decoder, which emits the bytes it completes. -/
theorem Lag91.chunk {cfg : Config} (hwf : cfg.wf = true) {acc cnt n v : Nat} (hn : payloadBits acc = n)
    (hv : acc % 2 ^ n = v) {d : State} {lag : List Byte} (h : Lag91 cfg acc (cnt + n) d lag) :
    ∃ lag', Lag91 cfg (acc / 2 ^ n) cnt (d.afterPushes [tab91 cfg (v % 91), tab91 cfg (v / 91)]) lag' ∧
      (d.afterPushes [tab91 cfg (v % 91), tab91 cfg (v / 91)]).out ++ lag' = d.out ++ lag := by
  obtain ⟨hlt, hbits⟩ := payload_chunk acc
  rw [hn, hv] at hlt hbits
  have hfew := h.few
  have hlength := h.length
  have hwidth := payloadBits_cases acc
  have hmoved := or_shiftLeft_lt h.fits (hv ▸ Nat.mod_lt acc (Nat.two_pow_pos n))
  rw [or_shiftLeft_eq_add h.fits] at hmoved
  obtain ⟨units, hafter, hunits, hvalue⟩ := h.reading.afterPushes_pair91 hwf h.pendv hfew h.fits hlt
  obtain ⟨htake, hdrop⟩ := littleEndian_split (by omega) (h.value_of_moved n)
  rw [hbits] at hunits hvalue
  rw [hv] at htake hdrop
  have hlow : units = lag.take ((d.cnt.toNat + n) / 8) :=
    littleEndian_inj (by rw [hunits, List.length_take_of_le (by omega)]) (hvalue.trans htake.symm)
  have hcnt : (d.paired91 v units).cnt.toNat = (d.cnt.toNat + n) % 8 := by
    rw [State.paired91, hbits]
    exact toNat_ofNat_of_lt (by omega)
  have hacc : (d.paired91 v units).acc.toNat =
      (d.acc.toNat + v * 2 ^ d.cnt.toNat) / 256 ^ ((d.cnt.toNat + n) / 8) := by
    rw [State.paired91, hbits]
    exact toNat_ofNat_of_lt ((Nat.div_le_self _ _).trans_lt
      (hmoved.trans_le (Nat.pow_le_pow_right Nat.two_pos (by omega))))
  rw [hafter]
  refine ⟨lag.drop ((d.cnt.toNat + n) / 8),
    ⟨⟨h.reading.runs, h.reading.cfg_eq, h.reading.padseen⟩, rfl, ?_, ?_, ?_, ?_⟩, ?_⟩
  · omega
  · rw [hcnt, hacc]
    refine Nat.div_lt_of_lt_mul ?_
    rwa [pow256_eq, ← pow_add, Nat.div_add_mod]
  · rw [List.length_drop, hcnt]
    omega
  · rw [hdrop, hcnt, hacc]
  · rw [hlow]
    show (d.out ++ lag.take ((d.cnt.toNat + n) / 8)) ++ lag.drop ((d.cnt.toNat + n) / 8) = _
    rw [List.append_assoc, List.take_append_drop]

/-- The bit packer's registers, as the numbers `Lag91` speaks of. -/
def Base91Lag (cfg : Config) (k : Packer) (d : State) (lag : List Byte) : Prop :=
  k.cnt.toNat ≤ 13 ∧ Lag91 cfg k.acc.toNat k.cnt.toNat d lag

theorem Base91Lag.push {cfg : Config} (hwf : cfg.wf = true) {k : Packer} {d : State} {lag : List Byte} (b : Byte)
    (h : Base91Lag cfg k d lag) : ∃ lag',
      Base91Lag cfg (encodePush91 cfg b k).left (d.afterPushes (encodePush91 cfg b k).units) lag' ∧
        (d.afterPushes (encodePush91 cfg b k).units).out ++ lag' = d.out ++ lag ++ [b] := by
  obtain ⟨hcnt, hlag⟩ := h
  have hloaded := hlag.load b
  have hcnt8 : (k.cnt + 8).toNat = k.cnt.toNat + 8 := by bv_omega
  have hreg : k.acc.toNat + b.toNat * 2 ^ k.cnt.toNat < 2 ^ 32 :=
    hloaded.acc_lt.trans_le (Nat.pow_le_pow_right Nat.two_pos (by omega))
  have hload : (BitVec.ofNat 32 (k.acc.toNat ||| b.toNat <<< k.cnt.toNat)).toNat =
      k.acc.toNat + b.toNat * 2 ^ k.cnt.toNat := by
    rw [or_shiftLeft_eq_add hlag.acc_lt, toNat_ofNat_of_lt hreg]
  rw [List.append_assoc]
  unfold encodePush91
  dsimp only
  rw [hcnt8]
  split
  · next hfull =>
    rw [hload]
    generalize hacc : k.acc.toNat + b.toNat * 2 ^ k.cnt.toNat = acc at hloaded hreg
    have hn := payloadBits_cases acc
    have hleft : (k.cnt + 8 - BitVec.ofNat 6 (payloadBits acc)).toNat = k.cnt.toNat + 8 - payloadBits acc := by
      obtain hn | hn := hn
      · rw [hn]
        bv_omega
      · rw [hn]
        bv_omega
    have hrest : (BitVec.ofNat 32 (acc >>> payloadBits acc)).toNat = acc / 2 ^ payloadBits acc := by
      rw [Nat.shiftRight_eq_div_pow, toNat_ofNat_of_lt ((Nat.div_le_self _ _).trans_lt hreg)]
    obtain ⟨lag', hlag', hout⟩ := Lag91.chunk hwf rfl rfl (cnt := k.cnt.toNat + 8 - payloadBits acc)
      (by rwa [Nat.sub_add_cancel (by omega)])
    rw [and_mask_eq_mod]
    refine ⟨lag', ⟨?_, ?_⟩, hout⟩
    · rw [hleft]
      omega
    · rwa [hleft, hrest]
  · next hmore =>
    refine ⟨lag ++ [b], ⟨?_, ?_⟩, rfl⟩
    · rw [hcnt8]
      omega
    · rwa [hcnt8, hload]

/-- With no symbol pending the FLUSH drops the bits that are left (R206). -/
theorem Reading.flush_of_no_pending {cfg : Config} {d : State} (h : Reading cfg .base91 d) (hpendv : d.pendv = false) :
    ∃ t, d.after .flush = t ∧ t.phase = .done ∧ t.out = d.out := by
  obtain ⟨-, -, hmode⟩ := h.runs
  have hrule : flushDecode d = .ok { d with acc := 0, cnt := 0 } := by
    rw [flushDecode_of_base91 hmode, flushDecodeBase91, if_neg (by rw [hpendv]; decide)]
  exact ⟨_, after_flush_of_decoding h.runs hrule, rfl, rfl⟩

/-- A lone last symbol and the bits before it are one byte (R202, R206). -/
theorem Lag91.flush_single {cfg : Config} (hwf : cfg.wf = true) {acc cnt : Nat} {d : State} {lag : List Byte}
    (h : Lag91 cfg acc cnt d lag) (hpos : 0 < cnt) (hcnt : cnt < 8) (hacc : acc < 91) :
    ∃ t, (d.after (.push (tab91 cfg acc))).after .flush = t ∧ t.phase = .done ∧ t.out = d.out ++ lag := by
  have hlength := h.length
  have hfew := h.few
  obtain ⟨r, rfl⟩ := List.length_eq_one_iff.mp (show lag.length = 1 by omega)
  have hvalue := h.value
  rw [littleEndian_cons, littleEndian_nil, Nat.mul_zero, Nat.add_zero] at hvalue
  have hbyte : unit ((d.acc.toNat ||| (BitVec.ofNat 7 acc).toNat <<< d.cnt.toNat) &&& 0xFF) = r := by
    rw [toNat_ofNat_of_lt (by omega), or_shiftLeft_eq_add h.fits, ← hvalue, unit_and_255]
    exact unit_eq_iff.mpr (Nat.mod_eq_of_lt r.isLt)
  obtain ⟨-, -, hmode⟩ := h.reading.runs
  have hrule : flushDecode (d.held91 acc) = .ok { d with
      out := d.out ++ [unit ((d.acc.toNat ||| (BitVec.ofNat 7 acc).toNat <<< d.cnt.toNat) &&& 0xFF)]
      pend := 0, pendv := false, acc := 0, cnt := 0 } := flushDecode_of_base91 (s := d.held91 acc) hmode
  rw [hbyte] at hrule
  rw [h.reading.after_first91 hwf h.pendv hacc]
  exact ⟨_, after_flush_of_decoding (d := d.held91 acc) h.reading.runs hrule, rfl, rfl⟩

/-- Two last symbols complete every byte still owed, and no other one (R202, R204). -/
theorem Lag91.flush_pair {cfg : Config} (hwf : cfg.wf = true) {acc cnt : Nat} {d : State} {lag : List Byte}
    (h : Lag91 cfg acc cnt d lag) (hcnt : cnt ≤ 13) (hpair : 7 ≤ cnt) :
    ∃ t, (d.afterPushes [tab91 cfg (acc % 91), tab91 cfg (acc / 91)]).after .flush = t ∧ t.phase = .done ∧
      t.out = d.out ++ lag := by
  have hacc : acc < 2 ^ 13 := h.acc_lt.trans_le (Nat.pow_le_pow_right Nat.two_pos hcnt)
  have hlength := h.length
  have hn := payloadBits_cases acc
  obtain ⟨units, hafter, hunits, hvalue⟩ := h.reading.afterPushes_pair91 hwf h.pendv h.few h.fits (v := acc) (by omega)
  have hcount : (d.cnt.toNat + payloadBits acc) / 8 = lag.length := by omega
  rw [hcount] at hunits hvalue
  have hlag : units = lag := by
    refine littleEndian_inj hunits ?_
    rw [hvalue, ← h.value, Nat.mod_eq_of_lt (littleEndian_lt lag)]
  have hreading : Reading cfg .base91 (d.paired91 acc units) :=
    ⟨h.reading.runs, h.reading.cfg_eq, h.reading.padseen⟩
  rw [hafter, ← hlag]
  exact hreading.flush_of_no_pending rfl

theorem Base91Lag.flush {cfg : Config} (hwf : cfg.wf = true) {k : Packer} {d : State} {lag : List Byte}
    (h : Base91Lag cfg k d lag) : ∃ t,
      (d.afterPushes (encodeFlush91 cfg k).units).after .flush = t ∧ t.phase = .done ∧ t.out = d.out ++ lag := by
  obtain ⟨hcnt, hlag⟩ := h
  have hlength := hlag.length
  have hfew := hlag.few
  unfold encodeFlush91
  by_cases hpos : 0 < k.cnt.toNat
  · rw [if_pos hpos]
    by_cases htwo : 8 ≤ k.cnt.toNat ∨ 91 ≤ k.acc.toNat
    · have hseven : 7 ≤ k.cnt.toNat := by
        by_contra hless
        have hacc := hlag.acc_lt.trans_le (Nat.pow_le_pow_right Nat.two_pos (show k.cnt.toNat ≤ 6 by omega))
        omega
      rw [if_pos htwo]
      exact hlag.flush_pair hwf hcnt hseven
    · rw [if_neg htwo]
      have hsmall : k.acc.toNat % 91 = k.acc.toNat := Nat.mod_eq_of_lt (by omega)
      dsimp only
      rw [hsmall]
      exact hlag.flush_single hwf hpos (by omega) (by omega)
  · rw [if_neg hpos, afterPushes_nil, List.eq_nil_of_length_eq_zero (show lag.length = 0 by omega), List.append_nil]
    exact hlag.reading.flush_of_no_pending hlag.pendv

theorem base91_follows {cfg : Config} (hwf : cfg.wf = true) : Follows cfg .base91 (Base91Lag cfg) where
  start _ hreading := ⟨Nat.zero_le 13, hreading, rfl, Nat.zero_le 7, Nat.one_pos, rfl, rfl⟩
  push _ _ _ b h := h.push hwf b
  flush _ _ _ h := h.flush hwf

/-- Settles O59. -/
theorem base91RoundTrip : Obligations.Base91RoundTrip := fun data _ hphase hwf hsep =>
  (base91_follows hwf).roundTrip data hphase hsep

end Sys2Proof.Machine
end

section
/-! PROOFS. How many units one PUSH and one FLUSH append to OUT, separators not counted (40_control.md R122). -/

namespace Sys2Proof.Machine

/-! ### Encode direction: the lengths of the emissions -/

theorem length_symbols32 (acc cnt : Nat) : (symbols32 acc cnt).length = cnt / 5 := by simp [symbols32]

theorem length_encodePush32 {b : Byte} {k : Packer} (h : k.cnt.toNat ≤ 4) :
    (encodePush32 b k).units.length ∈ [1, 2] := by
  have hcnt : (k.cnt + 8).toNat = k.cnt.toNat + 8 := by bv_omega
  have hlength : (encodePush32 b k).units.length = (k.cnt.toNat + 8) / 5 := hcnt ▸ length_symbols32 _ _
  rw [hlength, List.mem_pair]
  omega

theorem length_encodePush85 (b : Byte) (k : Packer) : (encodePush85 b k).units.length ∈ [0, 1, 5] := by
  unfold encodePush85
  dsimp only
  split_ifs <;> simp [digits85]

theorem length_encodePush91 (cfg : Config) (b : Byte) (k : Packer) :
    (encodePush91 cfg b k).units.length ∈ [0, 2] := by
  unfold encodePush91
  dsimp only
  split <;> simp

theorem length_encodePushRadix (cfg : Config) (r w : Nat) (b : Byte) (k : Packer) :
    (encodePushRadix cfg r w b k).units.length = w := by simp [encodePushRadix, numeral]

theorem length_encodePush {s : State} {m : Mode} (hrow : s.Row .encode m) (b : Byte) :
    (encodePush s.cfg m b s.packer).units.length ∈ pushCounts .encode m := by
  cases m with
  | base02 | base08 | base10 | base16 => exact List.mem_singleton.mpr (length_encodePushRadix ..)
  | base32 =>
    obtain ⟨-, hcounts, -⟩ := hrow
    obtain ⟨hcnt, -⟩ := base32_counts_step _ hcounts
    exact length_encodePush32 hcnt
  | base85 => exact length_encodePush85 b _
  | base91 => exact length_encodePush91 _ b _

theorem length_encodeFlush32 {s : State} (hrow : s.Base32EncodeRow) :
    (encodeFlush32 s.packer).units.length < 8 := by
  obtain ⟨-, hcounts, -⟩ := hrow
  have htail : 0 < s.cnt.toNat → s.gcnt.toNat ∈ [1, 3, 4, 6] := by
    simp only [List.mem_cons, Prod.mk.injEq, List.not_mem_nil, or_false] at hcounts ⊢
    omega
  unfold encodeFlush32
  split
  · next hcnt =>
    have hgcnt : s.gcnt.toNat < 7 ∧ 0 < s.gcnt.toNat := by
      have := htail hcnt
      simp only [List.mem_cons, List.not_mem_nil, or_false] at this
      omega
    have hnext : (s.gcnt + 1).toNat = s.gcnt.toNat + 1 := by bv_omega
    rw [List.length_cons, List.length_replicate]
    show (8 - (s.gcnt + 1).toNat) % 8 + 1 < 8
    omega
  · rw [List.length_replicate]
    exact Nat.mod_lt _ (by decide)

theorem length_encodeFlush85 {k : Packer} (h : k.gcnt.toNat ≤ 3) :
    (encodeFlush85 k).units.length ∈ [0, 2, 3, 4] := by
  unfold encodeFlush85
  split
  · simp only [List.length_map, List.length_take, digits85, List.length_range, List.mem_cons, List.not_mem_nil,
      or_false]
    omega
  · exact List.mem_cons_self

theorem length_encodeFlush91 (cfg : Config) (k : Packer) : (encodeFlush91 cfg k).units.length ∈ [0, 1, 2] := by
  unfold encodeFlush91
  split_ifs <;> simp

theorem length_encodeFlush {s : State} {m : Mode} (hrow : s.Row .encode m) :
    (encodeFlush s.cfg m s.packer).units.length ∈ flushCounts .encode m := by
  cases m with
  | base02 | base08 | base10 | base16 => exact List.mem_singleton.mpr rfl
  | base32 => exact List.mem_range.mpr (length_encodeFlush32 hrow)
  | base85 =>
    obtain ⟨-, -, hgcnt, -⟩ := hrow
    exact length_encodeFlush85 hgcnt
  | base91 => exact length_encodeFlush91 _ _

/-! ### Decode direction: bytes appended to OUT as they are -/

/-- `t` has as many more units in OUT than `s` as one of `ns`. -/
def Appends (ns : List Nat) (s t : State) : Prop :=
  ∃ units : List Byte, units.length ∈ ns ∧ t.out = s.out ++ units

theorem Appends.nothing {ns : List Nat} {s t : State} (hzero : 0 ∈ ns) (h : t.out = s.out) : Appends ns s t :=
  ⟨[], hzero, by rw [h, List.append_nil]⟩

theorem radixDecode_appends (r w : Nat) (c : Byte) (s : State) :
    Completes (Appends [0, 1] s) (radixDecode r w c s) := by
  unfold radixDecode
  cases digitValue c with
  | none => trivial
  | some d =>
    dsimp only
    split_ifs
    · trivial
    · trivial
    · exact ⟨[_], by simp, rfl⟩
    · exact .nothing (by simp) rfl

theorem pushDecodeBase32_appends (c : Byte) (s : State) :
    Completes (Appends [0, 1] s) (pushDecodeBase32 c s) := by
  unfold pushDecodeBase32
  split
  · exact Appends.nothing (by simp) rfl
  · split
    · trivial
    · extract_lets s1 emitted s2
      have hs2 : Appends [0, 1] s s2 := by
        unfold s2
        split
        · exact ⟨[_], by simp, rfl⟩
        · exact .nothing (by simp) rfl
      exact hs2

theorem pushDecodeBase85_appends (c : Byte) (s : State) :
    Completes (Appends [0, 4] s) (pushDecodeBase85 c s) := by
  unfold pushDecodeBase85
  simp only [emitBytes_eq]
  split
  · split
    · exact ⟨[0, 0, 0, 0], by simp, rfl⟩
    · trivial
  · cases value85 c with
    | none => trivial
    | some d =>
      dsimp only
      obtain ⟨-, -, heq⟩ | ⟨-, heq⟩ := assignAcc85_cases (s.acc.toNat + d * pow85 s.gcnt.toNat) c s
      · rw [heq]
        trivial
      · rw [heq]
        dsimp only
        split
        · exact ⟨accBytes _, by simp [accBytes], rfl⟩
        · exact Appends.nothing (by simp) rfl

theorem pushDecodeBase91_appends (c : Byte) {s : State} (hcnt : s.cnt.toNat ≤ 7) :
    Completes (Appends [0, 1, 2] s) (pushDecodeBase91 c s) := by
  unfold pushDecodeBase91
  split
  · trivial
  · next d _ =>
    split
    · obtain ⟨units, hdrain, hlength, -⟩ := drainBytes91_units _ (s.pairLoaded91 d) le_rfl
      rw [toNat_pairLoaded91_cnt hcnt] at hlength
      refine ⟨units, ?_, congrArg State.out hdrain⟩
      have hn := payloadBits_cases (s.pend.toNat + d * 91)
      simp only [List.mem_cons, List.not_mem_nil, or_false]
      omega
    · exact Appends.nothing (by simp) rfl

theorem pushDecode_appends (c : Byte) {s : State} (hrow : s.Row .decode s.mode) :
    Completes (Appends (pushCounts .decode s.mode) s) (pushDecode c s) := by
  unfold pushDecode
  generalize s.mode = m at hrow ⊢
  cases m with
  | base02 | base08 | base10 | base16 => exact radixDecode_appends _ _ c s
  | base32 => exact pushDecodeBase32_appends c s
  | base85 => exact pushDecodeBase85_appends c s
  | base91 =>
    obtain ⟨-, hcnt, -⟩ := hrow
    exact pushDecodeBase91_appends c hcnt

theorem zero_mem_pushCounts_decode (m : Mode) : 0 ∈ pushCounts .decode m := by cases m <;> decide

theorem zero_mem_flushCounts (d : Dir) (m : Mode) : 0 ∈ flushCounts d m := by
  cases d with
  | encode => cases m <;> decide
  | decode => cases m <;> decide

theorem pushFiltered_appends (c : Byte) {s : State} (hrow : s.Row .decode s.mode) :
    Appends (pushCounts .decode s.mode) s (pushFiltered c s) := by
  have hnothing (t : State) (ht : t.out = s.out) : Appends (pushCounts .decode s.mode) s t :=
    .nothing (zero_mem_pushCounts_decode s.mode) ht
  unfold pushFiltered
  split_ifs
  · exact hnothing s rfl
  · exact hnothing s rfl
  · have hrule := pushDecode_appends c hrow
    obtain ⟨t, hr, ht⟩ | ⟨f, -, hf⟩ := settle_cases s (pushDecode c s)
    · rw [hr] at hrule
      rwa [ht]
    · rw [hf]
      exact hnothing _ (raiseDecodeFault_out f s)

theorem flushDecodeBase85_appends (s : State) :
    Completes (Appends [0, 1, 2, 3] s) (flushDecodeBase85 s) := by
  unfold flushDecodeBase85
  simp only [emitBytes_eq]
  split
  · trivial
  · split
    · obtain ⟨-, -, heq⟩ | ⟨-, heq⟩ := assignAcc85_cases (s.acc.toNat + pow85 (s.gcnt.toNat - 1)) 0 s
      · rw [heq]
        trivial
      · rw [heq]
        refine ⟨(accBytes _).take _, ?_, rfl⟩
        rw [List.length_take]
        exact List.mem_range.mpr (show _ < 4 by omega)
    · exact Appends.nothing (by simp) rfl

theorem flushDecodeBase91_appends (s : State) : Completes (Appends [0, 1] s) (flushDecodeBase91 s) := by
  unfold flushDecodeBase91
  extract_lets emitted t
  have ht : Appends [0, 1] s t := by
    unfold t
    split
    · exact ⟨[_], by simp, rfl⟩
    · exact .nothing (by simp) rfl
  exact ht

theorem flushDecode_appends (s : State) :
    Completes (Appends (flushCounts .decode s.mode) s) (flushDecode s) := by
  unfold flushDecode
  generalize s.mode = m
  cases m with
  | base02 | base08 | base10 | base16 => exact Appends.nothing (List.mem_singleton.mpr rfl) rfl
  | base32 =>
    dsimp only
    unfold flushDecodeBase32
    split
    · trivial
    · exact Appends.nothing (List.mem_singleton.mpr rfl) rfl
  | base85 => exact flushDecodeBase85_appends s
  | base91 => exact flushDecodeBase91_appends s

theorem settle_flushRule_appends {s : State} (hdir : s.dir = .decode) :
    Appends (flushCounts .decode s.mode) s (settle s (flushRule s)) := by
  have hrule := flushDecode_appends s
  unfold flushRule
  rw [hdir]
  dsimp only
  cases hr : flushDecode s with
  | ok t =>
    rw [hr] at hrule
    exact hrule
  | error f => exact .nothing (zero_mem_flushCounts .decode s.mode) (raiseDecodeFault_out f s)

/-- Settles O50: in encode direction the units are those of the emission, in decode direction the bytes appended. -/
theorem outputCounts : Obligations.OutputCounts := by
  intro s d m hinv hruns
  have ⟨hphase, hdir, hmode⟩ := hruns
  obtain ⟨hactive, -⟩ := hinv
  obtain ⟨hrow, -⟩ := (activeInv_iff s).mp hactive hphase
  rw [hdir, hmode] at hrow
  cases d with
  | encode =>
    refine ⟨fun b => ⟨_, exec_eq_after _ s, _, length_encodePush hrow b, ?_⟩,
      ⟨_, exec_eq_after _ s, _, length_encodeFlush hrow, ?_⟩⟩
    · rw [after_push_of_encoding hruns]
      rfl
    · rw [after_flush_of_encoding hruns]
      rfl
  | decode =>
    subst hmode
    refine ⟨fun b => ⟨_, exec_eq_after _ s, ?_⟩, ⟨_, exec_eq_after _ s, ?_⟩⟩
    · rw [after_push_of_decoding hruns]
      exact pushFiltered_appends b hrow
    · rw [after_flush_of_active hphase]
      exact settle_flushRule_appends hdir

end Sys2Proof.Machine
end

section
/-! PROOFS. Base02, Base08, Base10 and Base16 (41_radix.md): what RadixDecode answers in each of its cases, what the
numeral of a byte is in each radix, and how many bytes a run of digits decodes to. -/

namespace Sys2Proof.Machine

/-! ### RadixDecode, case by case (R151) -/

theorem radixDecode_of_no_digit {r : Nat} {c : Byte} (h : ∀ d, digitValue c = some d → r ≤ d) (w : Nat) (s : State) :
    radixDecode r w c s = .error ⟨.invalidSymbol, c⟩ := by
  rw [radixDecode]
  cases hvalue : digitValue c with
  | none => rfl
  | some d => exact if_pos (h d hvalue)

section Digit

variable {r w d : Nat} {c : Byte} {s : State} (hvalue : digitValue c = some d) (hd : d < r)
include hvalue hd

theorem radixDecode_of_inner_digit (hgroup : s.gcnt.toNat + 1 ≠ w) :
    radixDecode r w c s = .ok { s with acc := BitVec.ofNat 32 (s.acc.toNat * r + d), gcnt := s.gcnt + 1 } := by
  rw [radixDecode, hvalue]
  dsimp only
  rw [if_neg (Nat.not_le.mpr hd), if_neg hgroup]

theorem radixDecode_of_last_digit (hgroup : s.gcnt.toNat + 1 = w)
    (hrange : s.acc.toNat * r + d ≤ 255 ∨ s.cfg.radixRange = .truncate) :
    radixDecode r w c s =
      .ok { s with out := s.out ++ [BitVec.ofNat 8 (s.acc.toNat * r + d)], acc := 0, gcnt := 0 } := by
  have hno_fault : ¬ (255 < s.acc.toNat * r + d ∧ s.cfg.radixRange = .fault) := by
    rintro ⟨hlarge, hfault⟩
    obtain hsmall | htruncate := hrange
    · exact Nat.not_lt.mpr hsmall hlarge
    · cases hfault.symm.trans htruncate
  have hlow : unit ((s.acc.toNat * r + d) % 256) = BitVec.ofNat 8 (s.acc.toNat * r + d) :=
    BitVec.eq_of_toNat_eq (Nat.mod_mod _ _)
  rw [radixDecode, hvalue]
  dsimp only
  rw [if_neg (Nat.not_le.mpr hd), if_pos hgroup, if_neg hno_fault, hlow]
  rfl

theorem radixDecode_of_range_fault (hgroup : s.gcnt.toNat + 1 = w) (hlarge : 255 < s.acc.toNat * r + d)
    (hfault : s.cfg.radixRange = .fault) : radixDecode r w c s = .error ⟨.radixRange, c⟩ := by
  rw [radixDecode, hvalue]
  dsimp only
  rw [if_neg (Nat.not_le.mpr hd), if_pos hgroup, if_pos ⟨hlarge, hfault⟩]

end Digit

/-- PUSH of a character that is not skippable, in decode direction of a radix mode (R145 to R148). -/
theorem exec_push_of_radix_decoding {m : Mode} {r w : Nat} (hm : (m, r, w) ∈ radixModes) {c : Byte} {s : State}
    (hruns : s.runs .decode m) (hskip : skippable s.cfg m c = false) :
    exec (.push c) s = .next (settle s (radixDecode r w c s)) := by
  obtain ⟨-, -, hrule, -⟩ := radixModes_rules hm
  have ⟨_, _, hmode⟩ := hruns
  subst hmode
  have hnot32 : s.mode ≠ .base32 := fun h => absurd (h ▸ hm) (by simp [radixModes])
  rw [exec_push_of_decoding hruns, pushFiltered_of_not_dropped (fun h => absurd h hnot32) hskip, hrule s c rfl]

/-- Settles O34: the PUSH settles RadixDecode, whose four cases are the clauses. -/
theorem pushDecodeRadix : Obligations.PushDecodeRadix := by
  intro c s m r w hm hruns hskip
  rw [exec_push_of_radix_decoding hm hruns hskip]
  refine ⟨fun h => ?_, fun d hvalue hd => ⟨fun hgroup => ?_, fun hgroup hrange => ?_, fun hgroup hlarge hfault => ?_⟩⟩
  · rw [radixDecode_of_no_digit h, settle_error]
  · rw [radixDecode_of_inner_digit hvalue hd hgroup, settle_ok]
  · rw [radixDecode_of_last_digit hvalue hd hgroup hrange, settle_ok]
  · rw [radixDecode_of_range_fault hvalue hd hgroup hlarge hfault, settle_error]

/-! ### FLUSH (R149, R150) -/

/-- Settles O33: the encoders leave no tail, and the decoders drop the one they have. -/
theorem flushRadix : Obligations.FlushRadix := by
  intro s m r w hm
  obtain ⟨-, hencode, -, hdecode⟩ := radixModes_rules hm
  refine ⟨fun hruns => ?_, fun hruns => ?_⟩
  · rw [exec_eq_after, after_flush_of_encoding hruns, hencode]
    rfl
  · have ⟨_, _, hmode⟩ := hruns
    rw [exec_eq_after, after_flush_of_decoding hruns (hdecode s hmode)]

/-! ### The numeral of a byte in each radix (R140 to R144) -/

theorem exec_push_of_radix_encoding {m : Mode} {r w : Nat} (hm : (m, r, w) ∈ radixModes) {s : State}
    (hruns : s.runs .encode m) (b : Byte) :
    exec (.push b) s = .next (s.emitTexts ((numeral r w b.toNat).map (digitChar s.cfg.hexCase))) := by
  obtain ⟨hencode, -⟩ := radixModes_rules hm
  rw [exec_eq_after, after_push_of_encoding hruns, hencode, emitTexts_eq_emit]
  rfl

/-- A bit field of a byte as a digit of its number. -/
theorem toNat_extractLsb'_eq_div_mod (b : Byte) (start len : Nat) :
    (b.extractLsb' start len).toNat = b.toNat / 2 ^ start % 2 ^ len := by
  rw [BitVec.extractLsb'_toNat, Nat.shiftRight_eq_div_pow]

theorem digitChar_toNat_of_lt_ten (hexCase : HexCase) {d : Byte} (h : d.toNat < 10) :
    digitChar hexCase d.toNat = 0x30 + d := by
  rw [digitChar_of_lt_ten _ h, unit, BitVec.ofNat_add, BitVec.ofNat_toNat, BitVec.setWidth_eq]
  rfl

/-- A binary digit is a bit (R141). -/
theorem digitChar_bit (hexCase : HexCase) (b : Byte) (k : Nat) :
    digitChar hexCase (b.toNat / 2 ^ k % 2) = if b.getLsbD k then (0x31 : Byte) else 0x30 := by
  rw [BitVec.getLsbD, Nat.testBit_eq_decide_div_mod_eq]
  obtain h | h := Nat.mod_two_eq_zero_or_one (b.toNat / 2 ^ k)
  all_goals
    rw [h]
    rfl

/-- An octal digit is a field of three bits (R142). -/
theorem digitChar_octal (hexCase : HexCase) (b : Byte) (k : Nat) :
    digitChar hexCase (b.toNat / 8 ^ k % 8) = 0x30 + (b.extractLsb' (3 * k) 3).setWidth 8 := by
  have hdigit : ((b.extractLsb' (3 * k) 3).setWidth 8).toNat = b.toNat / 8 ^ k % 8 := by
    rw [BitVec.toNat_setWidth_of_le (by decide), toNat_extractLsb'_eq_div_mod, Nat.pow_mul]
    rfl
  rw [← hdigit]
  exact digitChar_toNat_of_lt_ten _ (by omega)

/-- A hexadecimal digit, its letters in the case of HEXCASE (R92). -/
theorem digitChar_nibble (hexCase : HexCase) (d : BitVec 4) :
    digitChar hexCase d.toNat =
      if d < 10 then 0x30 + d.setWidth 8
      else if hexCase = .upper then 0x41 + (d.setWidth 8 - 10) else 0x61 + (d.setWidth 8 - 10) := by
  have hwide : (d.setWidth 8).toNat = d.toNat := BitVec.toNat_setWidth_of_le (by decide)
  by_cases hd : d < 10
  · have hsmall : (d.setWidth 8).toNat < 10 := by rw [hwide]; exact hd
    rw [if_pos hd, ← hwide, digitChar_toNat_of_lt_ten _ hsmall]
  · have hten : 10 ≤ d.toNat := Nat.not_lt.mp hd
    have hletter : BitVec.ofNat 8 (d.toNat - 10) = d.setWidth 8 - 10 := by bv_omega
    rw [if_neg hd]
    cases hexCase with
    | upper => rw [digitChar_upper hten, unit, BitVec.ofNat_add, hletter]; rfl
    | lower => rw [digitChar_lower hten, unit, BitVec.ofNat_add, hletter]; rfl

/-- A hexadecimal digit is a field of four bits (R144). -/
theorem hexDigit_eq_extractLsb' (b : Byte) (k : Nat) : b.toNat / 16 ^ k % 16 = (b.extractLsb' (4 * k) 4).toNat := by
  rw [toNat_extractLsb'_eq_div_mod, Nat.pow_mul]
  rfl

theorem numeral_base02 (hexCase : HexCase) (b : Byte) :
    (numeral 2 8 b.toNat).map (digitChar hexCase) =
      [7, 6, 5, 4, 3, 2, 1, 0].map fun k => if b.getLsbD k then (0x31 : Byte) else 0x30 := by
  simp only [numeral_succ, List.map_cons, digitChar_bit]
  rfl

theorem numeral_base08 (hexCase : HexCase) (b : Byte) :
    (numeral 8 3 b.toNat).map (digitChar hexCase) =
      [0x30 + (b.extractLsb' 6 2).setWidth 8, 0x30 + (b.extractLsb' 3 3).setWidth 8,
       0x30 + (b.extractLsb' 0 3).setWidth 8] := by
  have htop : (b.extractLsb' (3 * 2) 3).setWidth 8 = (b.extractLsb' 6 2).setWidth 8 := by
    apply BitVec.eq_of_toNat_eq
    have hbyte : b.toNat < 256 := b.isLt
    rw [BitVec.toNat_setWidth_of_le (by decide), BitVec.toNat_setWidth_of_le (by decide),
      toNat_extractLsb'_eq_div_mod, toNat_extractLsb'_eq_div_mod]
    omega
  simp only [numeral_succ, List.map_cons, digitChar_octal, htop]
  rfl

theorem numeral_base10 (hexCase : HexCase) (b : Byte) :
    (numeral 10 3 b.toNat).map (digitChar hexCase) = [0x30 + b / 100, 0x30 + b / 10 % 10, 0x30 + b % 10] := by
  have hbyte : b.toNat < 256 := b.isLt
  have hhundreds : b.toNat / 10 ^ 2 % 10 = (b / 100).toNat := by
    rw [BitVec.toNat_udiv, show (100 : Byte).toNat = 100 from rfl]
    omega
  have htens : b.toNat / 10 ^ 1 % 10 = (b / 10 % 10).toNat := by rw [BitVec.toNat_umod, BitVec.toNat_udiv]; rfl
  have hones : b.toNat / 10 ^ 0 % 10 = (b % 10).toNat := by rw [BitVec.toNat_umod, Nat.pow_zero, Nat.div_one]; rfl
  simp only [numeral_succ, List.map_cons, hhundreds, htens, hones]
  rw [digitChar_toNat_of_lt_ten _ (by omega), digitChar_toNat_of_lt_ten _ (by omega),
    digitChar_toNat_of_lt_ten _ (by omega)]
  rfl

theorem numeral_base16 (hexCase : HexCase) (b : Byte) :
    (numeral 16 2 b.toNat).map (digitChar hexCase) =
      [b.extractLsb' 4 4, b.extractLsb' 0 4].map fun d : BitVec 4 =>
        if d < 10 then 0x30 + d.setWidth 8
        else if hexCase = .upper then 0x41 + (d.setWidth 8 - 10) else 0x61 + (d.setWidth 8 - 10) := by
  simp only [numeral_succ, List.map_cons, hexDigit_eq_extractLsb', digitChar_nibble]
  rfl

/-- Settles O26: the text of a PUSH is the byte's numeral, digit by digit a bit field or a quotient. -/
theorem pushEncodeRadix : Obligations.PushEncodeRadix := by
  refine fun b s => ⟨fun hruns => ?_, fun hruns => ?_, fun hruns => ?_, fun hruns => ?_⟩
  · rw [exec_push_of_radix_encoding (r := 2) (w := 8) (by decide) hruns, numeral_base02]
  · rw [exec_push_of_radix_encoding (r := 8) (w := 3) (by decide) hruns, numeral_base08]
  · rw [exec_push_of_radix_encoding (r := 10) (w := 3) (by decide) hruns, numeral_base10]
  · rw [exec_push_of_radix_encoding (r := 16) (w := 2) (by decide) hruns, numeral_base16]

/-! ### A run of digits in the decoder (R149, R151) -/

/-- R221's ranges of a radix mode hold digits below the radix only. -/
theorem digit_of_symbolTable {cfg : Config} {m : Mode} {r w : Nat} (hm : (m, r, w) ∈ radixModes) {c : Byte}
    (h : symbolTable cfg m c = true) : ∃ d, digitValue c = some d ∧ d < r := by
  simp only [radixModes, List.mem_cons, Prod.mk.injEq, List.not_mem_nil, or_false] at hm
  have hdecimal {n : Nat} (hn : n ≤ 10) (hlow : 0x30 ≤ c.toNat) (hhigh : c.toNat < 0x30 + n) :
      ∃ d, digitValue c = some d ∧ d < n :=
    ⟨c.toNat - 0x30, (digitValue_eq_some_iff c _).mpr (by omega), by omega⟩
  rcases hm with ⟨rfl, rfl, rfl⟩ | ⟨rfl, rfl, rfl⟩ | ⟨rfl, rfl, rfl⟩ | ⟨rfl, rfl, rfl⟩
  · simp only [symbolTable, Bool.or_eq_true, beq_iff_eq] at h
    obtain rfl | rfl := h
    · exact ⟨0, rfl, by decide⟩
    · exact ⟨1, rfl, by decide⟩
  · obtain ⟨hlow, hhigh⟩ := of_decide_eq_true h
    exact hdecimal (by decide) hlow (Nat.lt_succ_of_le hhigh)
  · obtain ⟨hlow, hhigh⟩ := of_decide_eq_true h
    exact hdecimal (by decide) hlow (Nat.lt_succ_of_le hhigh)
  · simp only [symbolTable, Bool.or_eq_true, Bool.and_eq_true, decide_eq_true_eq] at h
    obtain (⟨hlow, hhigh⟩ | hupper) | hlower := h
    · obtain ⟨d, hvalue, hd⟩ := hdecimal (n := 10) le_rfl hlow (Nat.lt_succ_of_le hhigh)
      exact ⟨d, hvalue, by omega⟩
    · exact ⟨c.toNat - 0x41 + 10, (digitValue_eq_some_iff c _).mpr (by omega), by omega⟩
    · exact ⟨c.toNat - 0x61 + 10, (digitValue_eq_some_iff c _).mpr (by omega), by omega⟩

/-- ACC and GCNT hold the digits of an incomplete group (10_state.md R33). -/
def State.InGroup (s : State) (r w : Nat) : Prop := s.acc.toNat < r ^ s.gcnt.toNat ∧ s.gcnt.toNat < w

/-- `t` is `s` after `k` more digits of radix `r`: a byte has come out for each group of `w` that they completed. -/
def ReadDigits (r w k : Nat) (s t : State) : Prop :=
  t.InGroup r w ∧ ∃ (bytes : List Byte) (acc : BitVec 32) (gcnt : BitVec 3),
    t = { s with out := s.out ++ bytes, acc := acc, gcnt := gcnt } ∧
      w * bytes.length + gcnt.toNat = s.gcnt.toNat + k

theorem ReadDigits.refl {r w : Nat} {s : State} (h : s.InGroup r w) : ReadDigits r w 0 s s :=
  ⟨h, [], s.acc, s.gcnt, by rw [List.append_nil], by simp⟩

theorem ReadDigits.trans {r w j k : Nat} {s t u : State} (hst : ReadDigits r w j s t) (htu : ReadDigits r w k t u) :
    ReadDigits r w (j + k) s u := by
  obtain ⟨-, bs, _, gcnt, rfl, hbs⟩ := hst
  obtain ⟨hgroup, cs, acc', gcnt', rfl, hcs⟩ := htu
  refine ⟨hgroup, bs ++ cs, acc', gcnt', by rw [List.append_assoc], ?_⟩
  rw [List.length_append, Nat.mul_add]
  dsimp only at hcs
  omega

/-- One digit, where a group cannot leave the byte range or is truncated to it. -/
theorem radixDecode_readDigits {r w d : Nat} (hw : w ≤ 8) {c : Byte} (hvalue : digitValue c = some d) (hd : d < r)
    {s : State} (hgroup : s.InGroup r w) (hrange : r ^ w ≤ 256 ∨ s.cfg.radixRange = .truncate) :
    ∃ t, radixDecode r w c s = .ok t ∧ ReadDigits r w 1 s t := by
  obtain ⟨hacc, hgcnt⟩ := hgroup
  have hfolded := digit_lt_pow hacc hd
  by_cases hlast : s.gcnt.toNat + 1 = w
  · rw [hlast] at hfolded
    refine ⟨_, radixDecode_of_last_digit hvalue hd hlast (hrange.imp_left (by omega)), ⟨?_, ?_⟩, [_], 0, 0, rfl, ?_⟩
    · exact Nat.one_pos
    · exact Nat.zero_lt_of_lt hgcnt
    · simpa using hlast.symm
  · have hnext : (s.gcnt + 1).toNat = s.gcnt.toNat + 1 := by bv_omega
    refine ⟨_, radixDecode_of_inner_digit hvalue hd hlast, ⟨toNat_ofNat_lt ?_, ?_⟩,
      [], BitVec.ofNat 32 (s.acc.toNat * r + d), s.gcnt + 1, ?_, ?_⟩
    · rwa [hnext]
    · show (s.gcnt + 1).toNat < w
      omega
    · rw [List.append_nil]
    · simpa using hnext

theorem afterPushes_readDigits {m : Mode} {r w : Nat} (hm : (m, r, w) ∈ radixModes) (text : List Byte) {s : State}
    (hruns : s.runs .decode m) (hgroup : s.InGroup r w) (hrange : r ^ w ≤ 256 ∨ s.cfg.radixRange = .truncate)
    (htext : ∀ c ∈ text, symbolTable s.cfg m c = true ∧ skippable s.cfg m c = false) :
    ReadDigits r w text.length s (s.afterPushes text) := by
  induction text generalizing s with
  | nil => exact .refl hgroup
  | cons c text ih =>
    obtain ⟨⟨hsymbol, hskip⟩, hrest⟩ := List.forall_mem_cons.mp htext
    obtain ⟨-, -, hw, -⟩ := radixModes_bounds hm
    obtain ⟨d, hvalue, hd⟩ := digit_of_symbolTable hm hsymbol
    obtain ⟨t, hrule, hread⟩ := radixDecode_readDigits hw hvalue hd hgroup hrange
    have hafter : s.after (.push c) = t :=
      after_of_exec (by rw [exec_push_of_radix_decoding hm hruns hskip, hrule, settle_ok])
    have ⟨hgroup', _, _, _, hupdate, _⟩ := hread
    subst hupdate
    rw [afterPushes_cons, hafter, List.length_cons, Nat.add_comm]
    exact hread.trans (ih hruns hgroup' hrange hrest)

/-- Settles O53: the digits complete `k / W` groups, and the FLUSH drops the incomplete one. -/
theorem radixDecodeDropsPartialGroup : Obligations.RadixDecodeDropsPartialGroup := by
  intro m r w text s hm hphase hmode htext
  have hrange : r ^ w ≤ 256 ∨ s.cfg.radixRange = .truncate := by
    have hpower : ∀ row ∈ radixModes, row.1 = .base02 ∨ row.1 = .base16 → row.2.1 ^ row.2.2 ≤ 256 := by decide
    exact (or_assoc.mpr hmode).imp_left (hpower _ hm)
  obtain ⟨-, hw, -, -⟩ := radixModes_bounds hm
  obtain ⟨-, -, -, hflush⟩ := radixModes_rules hm
  obtain ⟨⟨-, hgcnt⟩, bytes, acc, gcnt, hread, hcount⟩ :=
    afterPushes_readDigits hm text (s := startInvocation .decode m s) ⟨rfl, rfl, rfl⟩ ⟨Nat.one_pos, hw⟩ hrange htext
  rw [hread] at hgcnt
  refine ⟨_, bytes, issue_decodeProgram hphase m text, ?_⟩
  rw [hread, after_flush_of_decoding (m := m) ⟨rfl, rfl, rfl⟩ (hflush _ rfl)]
  refine ⟨rfl, rfl, ?_⟩
  have hlength : w * bytes.length + gcnt.toNat = text.length := hcount.trans (Nat.zero_add _)
  rw [← hlength, Nat.mul_add_div hw, Nat.div_eq_of_lt hgcnt, Nat.add_zero]

end Sys2Proof.Machine
end

section
/-! PROOFS. Base32 (42_base32.md): PUSH and FLUSH of the encoder on the numbers in its bit packer, the rotating
offset, the decoder and its padding validator, and the shape of a whole encoding. -/

namespace Sys2Proof.Machine

/-! ### The symbols of the encoder (R161, R163) -/

theorem idx32_tab32_and_31 (v : Nat) : idx32 (tab32 (v &&& 31)) ≠ none := by
  have hlt : v &&& 31 < 2 ^ 5 := Nat.and_lt_two_pow v (by decide)
  rw [idx32_tab32 hlt]
  exact Option.some_ne_none _

theorem idx32_of_mem_symbols32 {acc cnt : Nat} {c : Byte} (h : c ∈ symbols32 acc cnt) : idx32 c ≠ none := by
  obtain ⟨j, -, rfl⟩ := List.mem_map.mp h
  exact idx32_tab32_and_31 _

theorem and_31_eq_mod (v : Nat) : v &&& 31 = v % 32 := Nat.and_two_pow_sub_one_eq_mod v 5

/-- The top five of `k` valid bits are the first symbol. -/
theorem symbols32_top {n k : Nat} (hn : n < 2 ^ k) (hk : 5 ≤ k) :
    symbols32 n k = tab32 (n / 2 ^ (k - 5)) :: symbols32 n (k - 5) := by
  have htop : n >>> (k - 5) < 32 := shiftRight_lt_two_pow (m := 5) hn (by omega)
  rw [symbols32_of_le hk, and_31_eq_mod, Nat.mod_eq_of_lt htop, Nat.shiftRight_eq_div_pow]

theorem symbols32_of_lt_ten {n k : Nat} (hn : n < 2 ^ k) (hlow : 5 ≤ k) (hhigh : k < 10) :
    symbols32 n k = [tab32 (n / 2 ^ (k - 5))] := by
  rw [symbols32_top hn hlow, symbols32_of_lt (by omega)]

theorem symbols32_of_ten_le {n k : Nat} (hn : n < 2 ^ k) (hlow : 10 ≤ k) (hhigh : k < 15) :
    symbols32 n k = [tab32 (n / 2 ^ (k - 5)), tab32 (n / 2 ^ (k - 10) % 32)] := by
  rw [symbols32_top hn (by omega), symbols32_of_le (by omega), symbols32_of_lt (by omega), and_31_eq_mod,
    Nat.shiftRight_eq_div_pow, Nat.sub_sub]

/-! ### PUSH of the encoder (R161, R162) -/

theorem encodePush32_of_bits (b : Byte) {k : Packer} (hcnt : k.cnt.toNat ≤ 4) (hacc : k.acc.toNat < 2 ^ k.cnt.toNat) :
    encodePush32 b k =
      ⟨symbols32 (k.acc.toNat * 256 + b.toNat) (k.cnt.toNat + 8),
        ⟨BitVec.ofNat 32 ((k.acc.toNat * 256 + b.toNat) % 2 ^ ((k.cnt.toNat + 8) % 5)),
          BitVec.ofNat 6 ((k.cnt.toNat + 8) % 5), k.gcnt + BitVec.ofNat 3 ((k.cnt.toNat + 8) / 5)⟩⟩ := by
  have hcnt8 : (k.cnt + 8).toNat = k.cnt.toNat + 8 := by bv_omega
  have hload : (BitVec.ofNat 32 (k.acc.toNat <<< 8 ||| b.toNat)).toNat = k.acc.toNat * 256 + b.toNat := by
    rw [shiftLeft_or_eq_add b.isLt]
    exact toNat_ofNat_of_lt
      ((mul_add_lt_two_pow (j := 8) hacc b.isLt).trans_le (Nat.pow_le_pow_right Nat.two_pos (by omega)))
  unfold encodePush32
  dsimp only
  rw [hload, hcnt8, and_mask_eq_mod]

/-- CNT and GCNT after a PUSH do not depend on ACC. -/
theorem encodePush32_left_counts (b : Byte) {k : Packer} (hcnt : k.cnt.toNat ≤ 4) :
    (encodePush32 b k).left.cnt.toNat = (k.cnt.toNat + 8) % 5 ∧
      (encodePush32 b k).left.gcnt.toNat = (k.gcnt.toNat + (k.cnt.toNat + 8) / 5) % 8 ∧
      (encodePush32 b k).units.length = (k.cnt.toNat + 8) / 5 := by
  have hcnt8 : (k.cnt + 8).toNat = k.cnt.toNat + 8 := by bv_omega
  unfold encodePush32
  dsimp only
  rw [hcnt8, length_symbols32, BitVec.toNat_add, toNat_ofNat_of_lt (w := 3) (by omega)]
  exact ⟨toNat_ofNat_of_lt (by omega), rfl, rfl⟩

theorem exec_push_of_encoding_base32 {s : State} (hruns : s.runs .encode .base32) (b : Byte) :
    exec (.push b) s = .next (s.emit (encodePush32 b s.packer)) := by
  rw [exec_eq_after, after_push_of_encoding hruns]
  rfl

theorem exec_flush_of_encoding_base32 {s : State} (hruns : s.runs .encode .base32) :
    exec .flush s = .next { s.emit (encodeFlush32 s.packer) with phase := .done } := by
  rw [exec_eq_after, after_flush_of_encoding hruns]
  rfl

/-- Settles O46: the offset follows CNT, which a PUSH takes to `(CNT + 8) mod 5`. -/
theorem base32OffsetMachine : Obligations.Base32OffsetMachine := by
  intro b s t hruns hcnt hexec
  obtain ⟨hleft, -⟩ := encodePush32_left_counts b (k := s.packer) hcnt
  rw [exec_push_of_encoding_base32 hruns] at hexec
  cases hexec
  have hnext : (s.emit (encodePush32 b s.packer)).cnt.toNat = (s.cnt.toNat + 8) % 5 := hleft
  dsimp only
  omega

/-! ### FLUSH of the encoder (R163) -/

/-- Fewer than five bits, zero-filled on the right, are one symbol. -/
theorem zero_filled_symbol {acc cnt : Nat} (hcnt : cnt ≤ 4) (hacc : acc < 2 ^ cnt) :
    (acc <<< (5 - cnt)) &&& 31 = acc * 2 ^ (5 - cnt) := by
  have hlt : acc <<< (5 - cnt) < 32 := by
    have hshift := Nat.shiftLeft_lt (m := 5 - cnt) hacc
    rwa [show cnt + (5 - cnt) = 5 by omega] at hshift
  rw [and_31_eq_mod, Nat.mod_eq_of_lt hlt, Nat.shiftLeft_eq]

theorem encodeFlush32_of_empty {k : Packer} (hcnt : k.cnt = 0) :
    encodeFlush32 k = ⟨List.replicate ((8 - k.gcnt.toNat) % 8) padChar, ⟨k.acc, k.cnt, 0⟩⟩ :=
  if_neg (by rw [hcnt]; decide)

theorem encodeFlush32_of_bits {k : Packer} (hcnt : k.cnt ≠ 0) :
    encodeFlush32 k =
      ⟨tab32 ((k.acc.toNat <<< (5 - k.cnt.toNat)) &&& 31) :: List.replicate (7 - k.gcnt.toNat) padChar,
        Packer.empty⟩ := by
  have hpos : 0 < k.cnt.toNat := by bv_omega
  have hpad : (8 - (k.gcnt + 1).toNat) % 8 = 7 - k.gcnt.toNat := by bv_omega
  rw [encodeFlush32, if_pos hpos, hpad]

/-! ### The decoder (R164, R165, R167) -/

theorem exec_push_of_decoding_base32 {s : State} (hruns : s.runs .decode .base32) (hpad : s.padseen = false) {c : Byte}
    (hskip : skippable s.cfg .base32 c = false) : exec (.push c) s = .next (settle s (pushDecodeBase32 c s)) := by
  have ⟨_, _, hmode⟩ := hruns
  rw [exec_push_of_decoding hruns, pushFiltered_of_not_dropped (fun _ => hpad) (hmode ▸ hskip),
    pushDecode_of_base32 hmode]

theorem pushDecodeBase32_of_no_symbol {c : Byte} (hpad : c ≠ padChar) (hidx : idx32 c = none) (s : State) :
    pushDecodeBase32 c s = .error ⟨.invalidSymbol, c⟩ := by
  rw [pushDecodeBase32, if_neg hpad, hidx]

/-- What the FLUSH does when the rule of the mode raises a DecodeFault. -/
theorem after_flush_of_decoding_fault {m : Mode} {d : State} {f : RaisedFault} (hruns : d.runs .decode m)
    (hrule : flushDecode d = .error f) : d.after .flush = raiseDecodeFault f d := by
  obtain ⟨hphase, hdir, -⟩ := hruns
  rw [after_flush_of_active hphase, flushRule, hdir, hrule]
  rfl

/-- Settles O38. -/
theorem nothingConsumedAfterPadding : Obligations.NothingConsumedAfterPadding := by
  intro text s hruns hpad
  have hpushes : s.afterAll (pushAll text) = s := afterPushes_of_padseen text hruns hpad
  rw [issue_eq, hpushes]
  rfl

/-! ### The shape of an encoding (R160, R163) -/

/-- CNT and GCNT after `n` bytes of an invocation (10_state.md R33). -/
def Packer.HasTaken (k : Packer) (n : Nat) : Prop := k.cnt.toNat = 8 * n % 5 ∧ k.gcnt.toNat = 8 * n / 5 % 8

/-- `count` symbols of TAB32, then `pad` times `=`. -/
def PaddedSymbols (count pad : Nat) (text : List Byte) : Prop :=
  ∃ symbols : List Byte, text = symbols ++ List.replicate pad padChar ∧
    (∀ c ∈ symbols, idx32 c ≠ none) ∧ symbols.length = count

theorem PaddedSymbols.prepend {count pad : Nat} {text cs : List Byte} (h : PaddedSymbols count pad text)
    (hcs : ∀ c ∈ cs, idx32 c ≠ none) : PaddedSymbols (cs.length + count) pad (cs ++ text) := by
  obtain ⟨symbols, rfl, hsymbols, rfl⟩ := h
  refine ⟨cs ++ symbols, (List.append_assoc _ _ _).symm, fun c hc => ?_, List.length_append⟩
  obtain hc | hc := List.mem_append.mp hc
  · exact hcs c hc
  · exact hsymbols c hc

/-- How many `=` follow the `ceil(8 n / 5)` symbols of `n` bytes. -/
def padCount32 (n : Nat) : Nat := (8 - (8 * n + 4) / 5 % 8) % 8

theorem mod_five_cases (n : Nat) : n % 5 = 0 ∨ n % 5 = 1 ∨ n % 5 = 2 ∨ n % 5 = 3 ∨ n % 5 = 4 := by omega

/-- Five bytes are eight symbols, so the table of R163 follows from the five cases of the remainder. -/
theorem padCount32_cases (n : Nat) :
    (n % 5, padCount32 n) ∈ [(0, 0), (1, 6), (2, 4), (3, 3), (4, 1)] ∧
      (8 * n + 4) / 5 + padCount32 n = 8 * ((n + 4) / 5) := by
  have hgroup : (8 * n + 4) / 5 = 8 * (n / 5) + (8 * (n % 5) + 4) / 5 := by omega
  unfold padCount32
  rw [hgroup, Nat.mul_add_mod]
  obtain h | h | h | h | h := mod_five_cases n
  all_goals
    rw [h]
    exact ⟨by decide, by omega⟩

theorem Packer.HasTaken.push {k : Packer} {n : Nat} (h : k.HasTaken n) (b : Byte) :
    (encodePush32 b k).left.HasTaken (n + 1) ∧
      8 * n / 5 + (encodePush32 b k).units.length = 8 * (n + 1) / 5 := by
  obtain ⟨hcnt, hgcnt⟩ := h
  obtain ⟨hcnt', hgcnt', hlength⟩ := encodePush32_left_counts b (k := k) (by omega)
  have hcount : 8 * n / 5 + (k.cnt.toNat + 8) / 5 = 8 * (n + 1) / 5 := by omega
  rw [Packer.HasTaken, hcnt', hgcnt', hlength, hgcnt, Nat.mod_add_mod, hcount]
  exact ⟨⟨by omega, rfl⟩, rfl⟩

/-- The FLUSH writes the symbol that the last, partial group needs, and the padding. -/
theorem Packer.HasTaken.flush {k : Packer} {n : Nat} (h : k.HasTaken n) :
    PaddedSymbols ((8 * n + 4) / 5 - 8 * n / 5) (padCount32 n) (encodeFlush32 k).units := by
  obtain ⟨hcnt, hgcnt⟩ := h
  by_cases hzero : k.cnt = 0
  · rw [hzero] at hcnt
    have hnone : 8 * n % 5 = 0 := hcnt.symm
    have hsame : (8 * n + 4) / 5 = 8 * n / 5 := by omega
    have hpad : padCount32 n = (8 - k.gcnt.toNat) % 8 := by rw [padCount32, hsame, hgcnt]
    rw [encodeFlush32_of_empty hzero, hpad]
    exact ⟨[], rfl, nofun, by rw [List.length_nil]; omega⟩
  · have hpos : k.cnt.toNat ≠ 0 := fun h => hzero (BitVec.eq_of_toNat_eq h)
    have hone : (8 * n + 4) / 5 = 8 * n / 5 + 1 := by omega
    have hpad : padCount32 n = 7 - k.gcnt.toNat := by
      rw [padCount32, hone, hgcnt]
      omega
    rw [encodeFlush32_of_bits hzero, hpad]
    refine ⟨[_], rfl, fun c hc => ?_, by rw [List.length_singleton]; omega⟩
    rw [List.mem_singleton.mp hc]
    exact idx32_tab32_and_31 _

theorem Packer.HasTaken.encodeAll (cfg : Config) (data : List Byte) {k : Packer} {n : Nat} (h : k.HasTaken n) :
    PaddedSymbols ((8 * (n + data.length) + 4) / 5 - 8 * n / 5) (padCount32 (n + data.length))
      (encodeAll cfg .base32 k data).units := by
  induction data generalizing k n with
  | nil => exact h.flush
  | cons b data ih =>
    obtain ⟨hnext, hcount⟩ := h.push b
    have hrest := (ih hnext).prepend (cs := (encodePush32 b k).units) fun _ => idx32_of_mem_symbols32
    have hlength : n + (b :: data).length = n + 1 + data.length := by
      rw [List.length_cons]
      omega
    have hsum : (8 * (n + 1 + data.length) + 4) / 5 - 8 * n / 5 =
        (encodePush32 b k).units.length + ((8 * (n + 1 + data.length) + 4) / 5 - 8 * (n + 1) / 5) := by omega
    rw [hlength, hsum]
    exact hrest

/-- Without wrapping the text goes to OUT as it is. -/
theorem encoded_out_of_llen_zero {s : State} (h : s.llen = 0) (m : Mode) (data : List Byte) :
    (s.encoded m data).out = s.out ++ encodedText s.cfg m data :=
  congrArg State.out (emitTexts_of_llen_zero (startInvocation .encode m s) (encodedText s.cfg m data) h)

/-- Settles O54: from the empty bit packer on, CNT and GCNT count the bytes, and fix the padding. -/
theorem base32EncodingShape : Obligations.Base32EncodingShape := by
  intro data s hphase hllen
  have hempty : Packer.empty.HasTaken 0 := ⟨rfl, rfl⟩
  obtain ⟨symbols, htext, hsymbols, hlength⟩ := hempty.encodeAll s.cfg data
  rw [Nat.zero_add] at htext hlength
  have hcount : symbols.length = (8 * data.length + 4) / 5 := hlength
  obtain ⟨htable, htotal⟩ := padCount32_cases data.length
  refine ⟨s.encoded .base32 data, symbols, padCount32 data.length, issue_encodeProgram hphase _ _, rfl, ?_, hsymbols,
    hcount, htable, hcount ▸ htotal⟩
  rw [encoded_out_of_llen_zero hllen, encodedText, htext, List.append_assoc]
  rfl

/-! ### The result statements, in a namespace of their own: in `Machine` their names are those of the rules -/

namespace Base32

/-- Settles O27: below ten bits the loop runs once, else twice. -/
theorem pushEncodeBase32 : Obligations.PushEncodeBase32 := by
  intro b s hruns hcnt hacc
  have hbits : s.acc.toNat * 256 + b.toNat < 2 ^ (s.cnt.toNat + 8) := mul_add_lt_two_pow (j := 8) hacc b.isLt
  rw [exec_push_of_encoding_base32 hruns, encodePush32_of_bits b (k := s.packer) hcnt hacc]
  dsimp only [State.packer]
  refine ⟨fun hone => ?_, fun htwo => ?_⟩
  · rw [symbols32_of_lt_ten hbits (by omega) hone, show (s.cnt.toNat + 8) % 5 = s.cnt.toNat + 8 - 5 by omega,
      show (s.cnt.toNat + 8) / 5 = 1 by omega]
    rfl
  · rw [symbols32_of_ten_le hbits htwo (by omega), show (s.cnt.toNat + 8) % 5 = s.cnt.toNat + 8 - 10 by omega,
      show (s.cnt.toNat + 8) / 5 = 2 by omega]
    rfl

/-- Settles O28: the padding alone, or the zero-filled symbol and the padding after it. -/
theorem flushEncodeBase32 : Obligations.FlushEncodeBase32 := by
  intro s hruns hcnt hacc
  rw [exec_flush_of_encoding_base32 hruns]
  refine ⟨fun hzero => ?_, fun hbits => ?_⟩
  · rw [encodeFlush32_of_empty (k := s.packer) hzero]
    have hpadding := (padToEight_eq_emit s).symm.trans (padToEight_eq 8 s (by omega))
    exact congrArg (fun t : State => Host.Outcome.next { t with phase := .done }) hpadding
  · rw [encodeFlush32_of_bits (k := s.packer) hbits]
    dsimp only [State.packer]
    rw [zero_filled_symbol hcnt hacc]
    rfl

/-- Settles O37: padding, no symbol, and a symbol that completes a byte or does not. -/
theorem pushDecodeBase32 : Obligations.PushDecodeBase32 := by
  intro c s hruns hpad hskip hcnt hacc
  rw [exec_push_of_decoding_base32 hruns hpad hskip]
  refine ⟨fun hc => ?_, fun hc hidx => ?_, fun d hidx => ?_⟩
  · rw [hc]
    rfl
  · rw [pushDecodeBase32_of_no_symbol hc hidx, settle_error]
  · obtain ⟨hd, rfl⟩ := (idx32_eq_some_iff_tab32 c d).mp hidx
    refine ⟨fun hfew => ?_, fun hbyte => ?_⟩
    · rw [pushDecodeBase32_tab32_of_few hd hcnt hacc hfew, settle_ok]
    · rw [pushDecodeBase32_tab32_of_byte hd hcnt hacc hbyte, settle_ok]
      rfl

/-- Settles O39: the two branches of the validator. -/
theorem flushDecodeBase32 : Obligations.FlushDecodeBase32 := by
  intro s hruns
  have ⟨_, _, hmode⟩ := hruns
  rw [exec_eq_after]
  refine ⟨fun hcnt hacc => ?_, fun hclean => ?_⟩
  · have hpos : 0 < s.cnt.toNat := by bv_omega
    have hrule := (flushDecode_of_base32 hmode).trans (if_pos ⟨hpos, hacc⟩)
    rw [after_flush_of_decoding_fault hruns hrule]
    rfl
  · have hnot : ¬ (0 < s.cnt.toNat ∧ s.acc ≠ 0) := by
      rintro ⟨hpos, hacc⟩
      obtain hzero | hzero := hclean
      · exact absurd (congrArg BitVec.toNat hzero) hpos.ne'
      · exact hacc hzero
    have hrule := (flushDecode_of_base32 hmode).trans (if_neg hnot)
    rw [after_flush_of_decoding hruns hrule]

end Base32

end Sys2Proof.Machine
end

section
/-! PROOFS. Base85 (43_base85.md): the digits of a word, PUSH and FLUSH of the encoder on the numbers in its bit packer,
the decoder under both values of B85_OVERFLOW, and the length of a whole encoding. -/

namespace Sys2Proof.Machine

/-! ### The digits of a word (R181) -/

theorem digits85_eq_quotients (w : Nat) :
    digits85 w = [w / 85 ^ 4 % 85, w / 85 ^ 3 % 85, w / 85 ^ 2 % 85, w / 85 % 85, w % 85] := by
  simp [digits85, pow85, List.range_succ]

theorem length_digits85 (w : Nat) : (digits85 w).length = 5 := by rw [digits85_eq_quotients]; rfl

/-- The first quotient of a 32-bit word is a digit already. -/
theorem digits85_of_lt {w : Nat} (hw : w < 2 ^ 32) :
    digits85 w = [w / 85 ^ 4, w / 85 ^ 3 % 85, w / 85 ^ 2 % 85, w / 85 % 85, w % 85] := by
  have hfirst : w / 85 ^ 4 % 85 = w / 85 ^ 4 := Nat.mod_eq_of_lt (by omega)
  rw [digits85_eq_quotients, hfirst]

/-- Settles O45: each digit is a remainder modulo 85 but the first, which a 32-bit word bounds by 82. -/
theorem digitsOfWord : Obligations.DigitsOfWord := by
  intro w hw
  have hdigit (v : Nat) : v % 85 ≤ 84 := Nat.le_pred_of_lt (Nat.mod_lt v (by decide))
  exact ⟨_, _, _, _, _, digits85_of_lt hw, by omega, by omega, hdigit _, hdigit _, hdigit _, hdigit _⟩

/-! ### PUSH and FLUSH of the encoder (R182, R183) -/

section Group85

variable {k : Packer} (hgcnt : k.gcnt.toNat ≤ 3) (hacc : k.acc.toNat < 2 ^ (8 * k.gcnt.toNat))
include hgcnt hacc

/-- The bytes of a group, zero-padded on the right or not, fit in the register. -/
theorem padded_group_lt : k.acc.toNat * 256 ^ (4 - k.gcnt.toNat) < 2 ^ 32 := by
  rw [← pow256_eq] at hacc
  calc k.acc.toNat * 256 ^ (4 - k.gcnt.toNat)
      < 256 ^ k.gcnt.toNat * 256 ^ (4 - k.gcnt.toNat) := Nat.mul_lt_mul_of_pos_right hacc (Nat.pow_pos (by decide))
    _ = 2 ^ 32 := by rw [← pow_add, Nat.add_sub_cancel' (by omega)]; rfl

theorem toNat_loaded85 (b : Byte) :
    (BitVec.ofNat 32 (k.acc.toNat <<< 8 ||| b.toNat)).toNat = k.acc.toNat * 256 + b.toNat := by
  rw [shiftLeft_or_eq_add b.isLt]
  exact toNat_ofNat_of_lt
    ((mul_add_lt_two_pow (j := 8) hacc b.isLt).trans_le (Nat.pow_le_pow_right Nat.two_pos (by omega)))

/-- A byte that does not complete the group goes into ACC. -/
theorem encodePush85_of_few (hfew : k.gcnt.toNat < 3) (b : Byte) :
    encodePush85 b k = ⟨[], ⟨BitVec.ofNat 32 (k.acc.toNat * 256 + b.toNat), k.cnt, k.gcnt + 1⟩⟩ := by
  rw [encodePush85, if_neg (by bv_omega), ← toNat_loaded85 hgcnt hacc, BitVec.ofNat_toNat, BitVec.setWidth_eq]

/-- The fourth byte writes the group. -/
theorem encodePush85_of_three (hthree : k.gcnt.toNat = 3) (b : Byte) :
    encodePush85 b k =
      ⟨if k.acc.toNat * 256 + b.toNat = 0 then [zChar] else (digits85 (k.acc.toNat * 256 + b.toNat)).map char85,
        ⟨0, k.cnt, 0⟩⟩ := by
  have hload := toNat_loaded85 hgcnt hacc b
  have hzero : BitVec.ofNat 32 (k.acc.toNat <<< 8 ||| b.toNat) = 0 ↔ k.acc.toNat * 256 + b.toNat = 0 := by
    rw [BitVec.toNat_eq, hload]
    rfl
  rw [encodePush85, if_pos (by bv_omega)]
  simp only [hzero, hload]

end Group85

/-- The FLUSH writes the first digits of the zero-padded word. -/
theorem encodeFlush85_of_bytes {k : Packer} (hpos : 0 < k.gcnt.toNat) :
    encodeFlush85 k =
      ⟨((digits85 (k.acc.toNat * 256 ^ (4 - k.gcnt.toNat))).take (k.gcnt.toNat + 1)).map char85, ⟨0, k.cnt, 0⟩⟩ := by
  rw [encodeFlush85, if_pos hpos, Nat.shiftLeft_eq, pow256_eq]

theorem encodeFlush85_of_empty {k : Packer} (hgcnt : k.gcnt = 0) : encodeFlush85 k = ⟨[], k⟩ :=
  if_neg (by rw [hgcnt]; decide)

theorem exec_push_of_encoding_base85 {s : State} (hruns : s.runs .encode .base85) (b : Byte) :
    exec (.push b) s = .next (s.emit (encodePush85 b s.packer)) := by
  rw [exec_eq_after, after_push_of_encoding hruns]
  rfl

theorem exec_flush_of_encoding_base85 {s : State} (hruns : s.runs .encode .base85) :
    exec .flush s = .next { s.emit (encodeFlush85 s.packer) with phase := .done } := by
  rw [exec_eq_after, after_flush_of_encoding hruns]
  rfl

/-! ### The assignment to ACC in the decoder (R186) -/

theorem assignAcc85_of_overflow {v : Nat} {s : State} (hlarge : 2 ^ 32 ≤ v) (hfault : s.cfg.b85Overflow = .fault)
    (c : Byte) : assignAcc85 v c s = .error ⟨.b85Overflow, c⟩ := if_pos ⟨hlarge, hfault⟩

theorem assignAcc85_of_fits {v : Nat} {s : State} (h : v < 2 ^ 32 ∨ s.cfg.b85Overflow = .wrap) (c : Byte) :
    assignAcc85 v c s = .ok { s with acc := BitVec.ofNat 32 v } := by
  refine if_neg fun ⟨hlarge, hfault⟩ => ?_
  obtain hsmall | hwrap := h
  · exact Nat.not_le.mpr hsmall hlarge
  · cases hfault.symm.trans hwrap

/-- The bytes of ACC do not depend on what was lost above bit 31. -/
theorem accBytes_of_wrapped (v : Nat) (s : State) : accBytes { s with acc := BitVec.ofNat 32 v } = bytes32 v := by
  rw [accBytes_eq_bytes32]
  simp only [bytes32, unit, List.cons.injEq, BitVec.toNat_eq, BitVec.toNat_ofNat, and_true]
  omega

/-! ### PUSH of the decoder (R185) -/

theorem exec_push_of_decoding_base85 {s : State} (hruns : s.runs .decode .base85) {c : Byte}
    (hskip : skippable s.cfg .base85 c = false) : exec (.push c) s = .next (settle s (pushDecodeBase85 c s)) := by
  have ⟨_, _, hmode⟩ := hruns
  have hnot32 : s.mode ≠ .base32 := by rw [hmode]; decide
  rw [exec_push_of_decoding hruns, pushFiltered_of_not_dropped (fun h => absurd h hnot32) (hmode ▸ hskip),
    pushDecode_of_base85 hmode]

theorem pushDecodeBase85_z_of_empty {s : State} (hgcnt : s.gcnt = 0) :
    pushDecodeBase85 zChar s = .ok { s with out := s.out ++ [0, 0, 0, 0] } := by
  rw [pushDecodeBase85, if_pos rfl, if_pos hgcnt, emitBytes_eq]

theorem pushDecodeBase85_z_of_pending {s : State} (hgcnt : s.gcnt ≠ 0) :
    pushDecodeBase85 zChar s = .error ⟨.b85StrayZ, zChar⟩ := by
  rw [pushDecodeBase85, if_pos rfl, if_neg hgcnt]

theorem pushDecodeBase85_of_no_digit {c : Byte} (hz : c ≠ zChar) (hrange : c.toNat < 33 ∨ 117 < c.toNat) (s : State) :
    pushDecodeBase85 c s = .error ⟨.invalidSymbol, c⟩ := by
  have hvalue : value85 c = none := if_neg (by omega)
  rw [pushDecodeBase85, if_neg hz, hvalue]

section Symbol85

variable {c : Byte} {s : State} (hlow : 33 ≤ c.toNat) (hhigh : c.toNat ≤ 117)
include hlow hhigh

theorem ne_zChar_of_digit85 : c ≠ zChar := by
  rintro rfl
  exact absurd hhigh (by decide)

theorem pushDecodeBase85_of_overflow
    (hlarge : 2 ^ 32 ≤ s.acc.toNat + (c.toNat - 33) * pow85 s.gcnt.toNat) (hfault : s.cfg.b85Overflow = .fault) :
    pushDecodeBase85 c s = .error ⟨.b85Overflow, c⟩ := by
  rw [pushDecodeBase85, if_neg (ne_zChar_of_digit85 hlow hhigh), value85, if_pos ⟨hlow, hhigh⟩]
  dsimp only
  rw [assignAcc85_of_overflow hlarge hfault]

/-- A digit whose sum is assigned, wrapped or not: the last one of a group brings its four bytes. -/
theorem pushDecodeBase85_of_sum
    (hsum : s.acc.toNat + (c.toNat - 33) * pow85 s.gcnt.toNat < 2 ^ 32 ∨ s.cfg.b85Overflow = .wrap) :
    pushDecodeBase85 c s =
      if s.gcnt + 1 = 5 then .ok { s with
        out := s.out ++ bytes32 (s.acc.toNat + (c.toNat - 33) * pow85 s.gcnt.toNat), acc := 0, gcnt := 0 }
      else .ok { s with
        acc := BitVec.ofNat 32 (s.acc.toNat + (c.toNat - 33) * pow85 s.gcnt.toNat), gcnt := s.gcnt + 1 } := by
  rw [pushDecodeBase85, if_neg (ne_zChar_of_digit85 hlow hhigh), value85, if_pos ⟨hlow, hhigh⟩]
  dsimp only
  rw [assignAcc85_of_fits hsum]
  dsimp only
  rw [emitBytes_eq, ← accBytes_of_wrapped _ s]
  rfl

end Symbol85

/-! ### FLUSH of the decoder (R188) -/

theorem flushDecodeBase85_of_empty {s : State} (hgcnt : s.gcnt = 0) : flushDecodeBase85 s = .ok s := by
  rw [flushDecodeBase85, if_neg (by rw [hgcnt]; decide), if_neg (by rw [hgcnt]; decide)]

theorem flushDecodeBase85_of_single {s : State} (hgcnt : s.gcnt = 1) :
    flushDecodeBase85 s = .error ⟨.b85SingleTail, 0⟩ := if_pos hgcnt

section Tail85

variable {s : State} (htail : 2 ≤ s.gcnt.toNat)
include htail

theorem flushDecodeBase85_of_overflow (hlarge : 2 ^ 32 ≤ s.acc.toNat + pow85 (s.gcnt.toNat - 1))
    (hfault : s.cfg.b85Overflow = .fault) : flushDecodeBase85 s = .error ⟨.b85Overflow, 0⟩ := by
  rw [flushDecodeBase85, if_neg (by bv_omega), if_pos htail, assignAcc85_of_overflow hlarge hfault]

theorem flushDecodeBase85_of_sum (hfew : s.gcnt.toNat ≤ 4)
    (hsum : s.acc.toNat + pow85 (s.gcnt.toNat - 1) < 2 ^ 32 ∨ s.cfg.b85Overflow = .wrap) :
    flushDecodeBase85 s = .ok { s with
      out := s.out ++ (bytes32 (s.acc.toNat + pow85 (s.gcnt.toNat - 1))).take (s.gcnt.toNat - 1)
      acc := 0, gcnt := 0 } := by
  rw [flushDecodeBase85, if_neg (by bv_omega), if_pos htail, assignAcc85_of_fits hsum]
  dsimp only
  rw [emitBytes_eq, accBytes_of_wrapped, Nat.min_eq_left (by omega)]

end Tail85

/-- A tail takes at most the three high bytes of the word. -/
theorem take_bytes32_of_le {n : Nat} (hn : n ≤ 3) (v : Nat) :
    (bytes32 v).take n = ([v / 256 ^ 3, v / 256 ^ 2, v / 256].take n).map (BitVec.ofNat 8) := by
  have hsplit : bytes32 v = [v / 256 ^ 3, v / 256 ^ 2, v / 256].map (BitVec.ofNat 8) ++ [unit v] := rfl
  rw [hsplit, List.map_take, List.take_append_of_le_length hn]

/-! ### The length of an encoding (R184) -/

/-- How many of the full groups of four bytes are all zero. -/
def zeroGroups85 (data : List Byte) : Nat :=
  ((List.range (data.length / 4)).filter fun i => decide ((data.drop (4 * i)).take 4 = [0, 0, 0, 0])).length

/-- How many characters the encoding of `data` has. -/
def textLength85 (data : List Byte) : Nat :=
  5 * (data.length / 4 - zeroGroups85 data) + zeroGroups85 data +
    if data.length % 4 = 0 then 0 else data.length % 4 + 1

theorem zeroGroups85_le (data : List Byte) : zeroGroups85 data ≤ data.length / 4 :=
  (List.length_filter_le _ _).trans_eq List.length_range

/-- One full group in front. -/
theorem zeroGroups85_append {group : List Byte} (hgroup : group.length = 4) (data : List Byte) :
    zeroGroups85 (group ++ data) = (if group = [0, 0, 0, 0] then 1 else 0) + zeroGroups85 data := by
  have hfull : (group ++ data).length / 4 = data.length / 4 + 1 := by rw [List.length_append]; omega
  have hfirst : ((group ++ data).drop (4 * 0)).take 4 = group := by
    rw [Nat.mul_zero, List.drop_zero, ← hgroup, List.take_left]
  have hrest (i : Nat) : (group ++ data).drop (4 * (i + 1)) = data.drop (4 * i) := by
    rw [List.drop_append, List.drop_of_length_le (by omega), List.nil_append]
    congr 1
    omega
  rw [zeroGroups85, hfull, List.range_succ_eq_map, List.filter_cons, hfirst, List.filter_map]
  simp only [Function.comp_def, Nat.succ_eq_add_one, hrest]
  split
  · next hzero =>
    rw [if_pos (of_decide_eq_true hzero), List.length_cons, List.length_map, Nat.add_comm]
    rfl
  · next hzero =>
    rw [if_neg (fun h => hzero (decide_eq_true h)), List.length_map, Nat.zero_add]
    rfl

theorem textLength85_append {group : List Byte} (hgroup : group.length = 4) (data : List Byte) :
    textLength85 (group ++ data) = (if group = [0, 0, 0, 0] then 1 else 5) + textLength85 data := by
  have hfull : (group ++ data).length / 4 = data.length / 4 + 1 := by rw [List.length_append]; omega
  have hleft : (group ++ data).length % 4 = data.length % 4 := by rw [List.length_append]; omega
  have hle := zeroGroups85_le data
  rw [textLength85, textLength85, zeroGroups85_append hgroup, hfull, hleft]
  split <;> omega

theorem textLength85_of_few {data : List Byte} (hfew : data.length ≤ 3) :
    textLength85 data = if data.length = 0 then 0 else data.length + 1 := by
  have hnone : data.length / 4 = 0 := by omega
  have hzero : zeroGroups85 data = 0 := Nat.le_zero.mp (hnone ▸ zeroGroups85_le data)
  rw [textLength85, hzero, hnone, Nat.mod_eq_of_lt (by omega), Nat.zero_add]

/-- A group is the zero word only when its bytes are zero. -/
theorem bigEndian_eq_zero_iff {group : List Byte} (hgroup : group.length = 4) :
    bigEndian group = 0 ↔ group = [0, 0, 0, 0] := by
  refine ⟨fun h => ?_, fun h => h ▸ rfl⟩
  have hreverse : group.reverse = [0, 0, 0, 0] :=
    littleEndian_inj (by rw [List.length_reverse, hgroup]; rfl) h
  exact List.reverse_eq_iff.mp hreverse

/-- The encoder has begun a group with the bytes `lag`. -/
structure Packer.Holds (k : Packer) (lag : List Byte) : Prop where
  few : lag.length ≤ 3
  counted : k.gcnt.toNat = lag.length
  value : k.acc.toNat = bigEndian lag

theorem Packer.Holds.gcnt_le {k : Packer} {lag : List Byte} (h : k.Holds lag) : k.gcnt.toNat ≤ 3 :=
  h.counted.trans_le h.few

theorem Packer.Holds.acc_lt {k : Packer} {lag : List Byte} (h : k.Holds lag) :
    k.acc.toNat < 2 ^ (8 * k.gcnt.toNat) := by
  rw [h.value, h.counted, ← pow256_eq]
  exact bigEndian_lt lag

/-- A byte that does not complete the group is held too. -/
theorem Packer.Holds.push_of_few {k : Packer} {lag : List Byte} (h : k.Holds lag) (hfew : lag.length < 3) (b : Byte) :
    (encodePush85 b k).left.Holds (lag ++ [b]) ∧ (encodePush85 b k).units = [] := by
  have hload := toNat_loaded85 h.gcnt_le h.acc_lt b
  have hcounted := h.counted
  rw [shiftLeft_or_eq_add b.isLt] at hload
  rw [encodePush85_of_few h.gcnt_le h.acc_lt (by omega)]
  refine ⟨⟨?_, ?_, ?_⟩, rfl⟩
  · rw [List.length_append, List.length_singleton]
    omega
  · rw [List.length_append, List.length_singleton]
    show (k.gcnt + 1).toNat = _
    bv_omega
  · rw [bigEndian_concat, ← h.value]
    exact hload

/-- The fourth byte writes the group. -/
theorem Packer.Holds.push_of_three {k : Packer} {lag : List Byte} (h : k.Holds lag) (hthree : lag.length = 3)
    (b : Byte) :
    (encodePush85 b k).left.Holds [] ∧
      (encodePush85 b k).units.length = if lag ++ [b] = [0, 0, 0, 0] then 1 else 5 := by
  have hgroup : (lag ++ [b]).length = 4 := by rw [List.length_append, hthree]; rfl
  rw [encodePush85_of_three h.gcnt_le h.acc_lt (h.counted.trans hthree), h.value, ← bigEndian_concat]
  refine ⟨⟨Nat.zero_le 3, rfl, rfl⟩, ?_⟩
  simp only [bigEndian_eq_zero_iff hgroup]
  split
  · rfl
  · rw [List.length_map, length_digits85]

theorem Packer.Holds.flush {k : Packer} {lag : List Byte} (h : k.Holds lag) :
    (encodeFlush85 k).units.length = textLength85 lag := by
  have hfew := h.few
  have hcounted := h.counted
  rw [textLength85_of_few hfew]
  split
  · next hnone =>
    rw [encodeFlush85_of_empty (BitVec.eq_of_toNat_eq (hcounted.trans hnone))]
    rfl
  · next hsome =>
    rw [encodeFlush85_of_bytes (by omega), hcounted]
    rw [List.length_map, List.length_take, length_digits85]
    omega

/-- From a begun group on, the characters are counted as if its bytes were still to come. -/
theorem Packer.Holds.length_encodeAll (cfg : Config) (data : List Byte) {k : Packer} {lag : List Byte}
    (h : k.Holds lag) : (encodeAll cfg .base85 k data).units.length = textLength85 (lag ++ data) := by
  induction data generalizing k lag with
  | nil =>
    rw [List.append_nil]
    exact h.flush
  | cons b data ih =>
    have hsplit : lag ++ b :: data = lag ++ [b] ++ data := List.append_cons lag b data
    have hlength : (encodeAll cfg .base85 k (b :: data)).units.length = (encodePush85 b k).units.length +
      (encodeAll cfg .base85 (encodePush85 b k).left data).units.length := List.length_append
    rw [hsplit, hlength]
    by_cases hthree : lag.length = 3
    · obtain ⟨hnext, hunits⟩ := h.push_of_three hthree b
      have hgroup : (lag ++ [b]).length = 4 := by rw [List.length_append, hthree]; rfl
      rw [ih hnext, hunits, textLength85_append hgroup, List.nil_append]
    · have hfew := h.few
      obtain ⟨hnext, hunits⟩ := h.push_of_few (by omega) b
      rw [ih hnext, hunits, List.length_nil, Nat.zero_add]

/-- Settles O55: the encoder starts between two groups, and without wrapping OUT gets the text as it is. -/
theorem base85EncodingLength : Obligations.Base85EncodingLength := by
  intro data s hphase hllen
  have hempty : Packer.empty.Holds [] := ⟨Nat.zero_le 3, rfl, rfl⟩
  exact ⟨s.encoded .base85 data, encodedText s.cfg .base85 data, issue_encodeProgram hphase _ _, rfl,
    encoded_out_of_llen_zero hllen _ _, hempty.length_encodeAll s.cfg data⟩

/-! ### The result statements, in a namespace of their own: in `Machine` their names are those of the rules -/

namespace Base85

/-- Settles O29: the byte goes into ACC, and the fourth one writes `z` or the digits. -/
theorem pushEncodeBase85 : Obligations.PushEncodeBase85 := by
  intro b s hruns hgcnt hacc
  have hword : s.packer.acc.toNat * 256 + b.toNat < 2 ^ 32 :=
    (toNat_loaded85 (k := s.packer) hgcnt hacc b).symm.trans_lt (BitVec.isLt _)
  rw [exec_push_of_encoding_base85 hruns]
  refine ⟨fun hfew => ?_, fun hthree hzero => ?_, fun hthree hsome => ?_⟩
  · rw [encodePush85_of_few (k := s.packer) hgcnt hacc hfew]
    rfl
  · rw [encodePush85_of_three (k := s.packer) hgcnt hacc hthree,
      if_pos (show s.packer.acc.toNat * 256 + b.toNat = 0 from hzero)]
    exact congrArg Host.Outcome.next (emitTexts_acc_gcnt_eq_emit s [zChar] 0 0).symm
  · rw [encodePush85_of_three (k := s.packer) hgcnt hacc hthree,
      if_neg (show s.packer.acc.toNat * 256 + b.toNat ≠ 0 from hsome), digits85_of_lt hword]
    exact congrArg Host.Outcome.next (emitTexts_acc_gcnt_eq_emit s _ 0 0).symm

/-- Settles O30: nothing without leftover bytes, else the digits of the padded word. -/
theorem flushEncodeBase85 : Obligations.FlushEncodeBase85 := by
  intro s hruns hgcnt hacc
  rw [exec_flush_of_encoding_base85 hruns]
  refine ⟨fun hzero => ?_, fun hbytes => ?_⟩
  · rw [encodeFlush85_of_empty (k := s.packer) hzero]
    rfl
  · have hpos : 0 < s.gcnt.toNat := by bv_omega
    rw [encodeFlush85_of_bytes (k := s.packer) hpos,
      digits85_of_lt (padded_group_lt (k := s.packer) hgcnt hacc)]
    exact congrArg (fun t : State => Host.Outcome.next { t with phase := .done })
      (emitTexts_acc_gcnt_eq_emit s _ 0 0).symm

/-- Settles O40: `z`, no digit, and a digit whose sum faults, stays in ACC or completes a group. -/
theorem pushDecodeBase85 : Obligations.PushDecodeBase85 := by
  intro c s hruns hskip hgcnt
  rw [exec_push_of_decoding_base85 hruns hskip]
  refine ⟨fun hc hzero => ?_, fun hc hpending => ?_, fun hz hrange => ?_, fun hlow hhigh =>
    ⟨fun hlarge hfault => ?_, fun hsum hinner => ?_, fun hsum hlast => ?_⟩⟩
  · rw [show c = zChar from hc, pushDecodeBase85_z_of_empty hzero, settle_ok]
  · rw [show c = zChar from hc, pushDecodeBase85_z_of_pending hpending, settle_error]
    rfl
  · rw [pushDecodeBase85_of_no_digit hz hrange, settle_error]
  · rw [pushDecodeBase85_of_overflow hlow hhigh hlarge hfault, settle_error]
  · rw [pushDecodeBase85_of_sum hlow hhigh hsum, if_neg (by bv_omega), settle_ok]
    rfl
  · rw [pushDecodeBase85_of_sum hlow hhigh hsum, if_pos (by bv_omega), settle_ok]
    rfl

/-- Settles O41: nothing pending, a single symbol, and a tail whose padded sum faults or is assigned. -/
theorem flushDecodeBase85 : Obligations.FlushDecodeBase85 := by
  intro s hruns hgcnt
  have ⟨_, _, hmode⟩ := hruns
  have hrule := flushDecode_of_base85 hmode
  rw [exec_eq_after]
  refine ⟨fun hzero => ?_, fun hone => ?_, fun htail => ?_⟩
  · rw [after_flush_of_decoding hruns (hrule.trans (flushDecodeBase85_of_empty hzero))]
  · rw [after_flush_of_decoding_fault hruns (hrule.trans (flushDecodeBase85_of_single hone))]
  · have hplace : 85 ^ (5 - s.gcnt.toNat) = pow85 (s.gcnt.toNat - 1) := by
      rw [pow85, show 4 - (s.gcnt.toNat - 1) = 5 - s.gcnt.toNat by omega]
    rw [hplace]
    refine ⟨fun hlarge hfault => ?_, fun hsum => ?_⟩
    · rw [after_flush_of_decoding_fault hruns (hrule.trans (flushDecodeBase85_of_overflow htail hlarge hfault))]
    · rw [after_flush_of_decoding hruns (hrule.trans (flushDecodeBase85_of_sum htail hgcnt hsum)),
        take_bytes32_of_le (by omega)]

end Base85

end Sys2Proof.Machine
end

section
/-! PROOFS. Base91 (44_base91.md): PUSH and FLUSH of the encoder on the numbers in its bit packer, and the decoder's
pair of symbols and lone last symbol. -/

namespace Sys2Proof.Machine

/-! ### The payload width and the load into ACC (R200) -/

theorem payloadBits_eq (v : Nat) : payloadBits v = if 88 < v % 8192 then 13 else 14 := by
  rw [payloadBits, show v &&& 8191 = v % 8192 from Nat.and_two_pow_sub_one_eq_mod v 13]

theorem payloadBits_of_large {v : Nat} (h : 88 < v % 8192) : payloadBits v = 13 := by
  rw [payloadBits_eq, if_pos h]

theorem payloadBits_of_small {v : Nat} (h : v % 8192 ≤ 88) : payloadBits v = 14 := by
  rw [payloadBits_eq, if_neg (Nat.not_lt.mpr h)]

/-- ACC holds `x` of `j` bits above its `k` valid ones when both fit. -/
theorem toNat_loaded91 {v x k j : Nat} (hv : v < 2 ^ k) (hx : x < 2 ^ j) (hfits : k + j ≤ 32) :
    (BitVec.ofNat 32 (v ||| x <<< k)).toNat = v + x * 2 ^ k := by
  rw [toNat_ofNat_of_lt ((or_shiftLeft_lt hv hx).trans_le (Nat.pow_le_pow_right Nat.two_pos hfits)),
    or_shiftLeft_eq_add hv]

/-! ### PUSH and FLUSH of the encoder (R201, R202) -/

section Chunk91

variable {k : Packer} (hcnt : k.cnt.toNat ≤ 13) (hacc : k.acc.toNat < 2 ^ k.cnt.toNat)
include hcnt hacc

/-- Below 14 bits a byte goes into ACC. -/
theorem encodePush91_of_few (cfg : Config) {b : Byte} (hfew : k.cnt.toNat + 8 < 14) :
    encodePush91 cfg b k =
      ⟨[], ⟨BitVec.ofNat 32 (k.acc.toNat + b.toNat * 2 ^ k.cnt.toNat), BitVec.ofNat 6 (k.cnt.toNat + 8), k.gcnt⟩⟩ := by
  have hcnt8 : k.cnt + 8 = BitVec.ofNat 6 (k.cnt.toNat + 8) := by bv_omega
  rw [encodePush91, if_neg (by bv_omega), or_shiftLeft_eq_add hacc, hcnt8]

/-- From 14 bits on the low `n` bits of the value held leave as two symbols, and the bits above them move down. -/
theorem encodePush91_of_chunk (cfg : Config) {b : Byte} {v n : Nat} (hfull : 14 ≤ k.cnt.toNat + 8)
    (hv : k.acc.toNat + b.toNat * 2 ^ k.cnt.toNat = v) (hn : payloadBits v = n) :
    encodePush91 cfg b k =
      ⟨[tab91 cfg (v % 2 ^ n % 91), tab91 cfg (v % 2 ^ n / 91)],
        ⟨BitVec.ofNat 32 (v / 2 ^ n), BitVec.ofNat 6 (k.cnt.toNat + 8 - n), k.gcnt⟩⟩ := by
  have hwidth := hn ▸ payloadBits_cases v
  have hload := toNat_loaded91 hacc b.isLt (by omega)
  have hleft : k.cnt + 8 - BitVec.ofNat 6 n = BitVec.ofNat 6 (k.cnt.toNat + 8 - n) := by
    obtain rfl | rfl := hwidth
    · bv_omega
    · bv_omega
  rw [encodePush91, if_pos (by bv_omega)]
  simp only [hload, hv, hn, hleft, and_mask_eq_mod, Nat.shiftRight_eq_div_pow]

end Chunk91

theorem encodeFlush91_of_empty (cfg : Config) {k : Packer} (hcnt : k.cnt = 0) : encodeFlush91 cfg k = ⟨[], k⟩ :=
  if_neg (by rw [hcnt]; decide)

theorem encodeFlush91_of_two (cfg : Config) {k : Packer} (hcnt : k.cnt ≠ 0)
    (htwo : 8 ≤ k.cnt.toNat ∨ 91 ≤ k.acc.toNat) :
    encodeFlush91 cfg k = ⟨[tab91 cfg (k.acc.toNat % 91), tab91 cfg (k.acc.toNat / 91)], ⟨0, 0, k.gcnt⟩⟩ := by
  rw [encodeFlush91, if_pos (by bv_omega), if_pos htwo]

theorem encodeFlush91_of_one (cfg : Config) {k : Packer} (hcnt : k.cnt ≠ 0) (hfew : k.cnt.toNat < 8)
    (hacc : k.acc.toNat < 91) : encodeFlush91 cfg k = ⟨[tab91 cfg k.acc.toNat], ⟨0, 0, k.gcnt⟩⟩ := by
  rw [encodeFlush91, if_pos (by bv_omega), if_neg (by omega), Nat.mod_eq_of_lt hacc]

theorem exec_push_of_encoding_base91 {s : State} (hruns : s.runs .encode .base91) (b : Byte) :
    exec (.push b) s = .next (s.emit (encodePush91 s.cfg b s.packer)) := by
  rw [exec_eq_after, after_push_of_encoding hruns]
  rfl

theorem exec_flush_of_encoding_base91 {s : State} (hruns : s.runs .encode .base91) :
    exec .flush s = .next { s.emit (encodeFlush91 s.cfg s.packer) with phase := .done } := by
  rw [exec_eq_after, after_flush_of_encoding hruns]
  rfl

/-! ### PUSH of the decoder (R204) -/

/-- The low `q` bytes of `v`, the lowest first. -/
def lowBytes (v q : Nat) : List Byte := (List.range q).map fun j => unit (v / 256 ^ j)

theorem lowBytes_succ (v q : Nat) : lowBytes v (q + 1) = unit v :: lowBytes (v / 256) q := by
  have hnext (j : Nat) : v / 256 ^ (j + 1) = v / 256 / 256 ^ j := by rw [pow_succ', Nat.div_div_eq_div_mul]
  rw [lowBytes, lowBytes, List.range_succ_eq_map, List.map_cons, List.map_map, pow_zero, Nat.div_one]
  simp only [Function.comp_def, Nat.succ_eq_add_one, hnext]

/-- A list of bytes is the low bytes of every number that agrees with its own in those bytes. -/
theorem eq_lowBytes_of_littleEndian {bs : List Byte} {v : Nat} (h : littleEndian bs = v % 256 ^ bs.length) :
    bs = lowBytes v bs.length := by
  induction bs generalizing v with
  | nil => rfl
  | cons b bs ih =>
    have hb := b.isLt
    rw [littleEndian_cons, List.length_cons, pow_succ', Nat.mod_mul] at h
    have hlow : unit v = b := unit_eq_iff.mpr (by omega)
    rw [List.length_cons, lowBytes_succ, hlow, ← ih (by omega)]

/-- A second symbol completes the value of the pair, and the loop writes the whole bytes. -/
theorem drainBytes91_pairLoaded91 {s : State} {d : Nat} (hcnt : s.cnt.toNat ≤ 7) (hacc : s.acc.toNat < 2 ^ s.cnt.toNat)
    (hpend : s.pend.toNat ≤ 90) (hd : d < 91) {v : Nat} (hv : s.pend.toNat + d * 91 = v) :
    drainBytes91 (s.pairLoaded91 d).cnt.toNat (s.pairLoaded91 d) =
      s.paired91 v (lowBytes (s.acc.toNat + v * 2 ^ s.cnt.toNat) ((s.cnt.toNat + payloadBits v) / 8)) := by
  have hwidth := payloadBits_cases (s.pend.toNat + d * 91)
  have hcnt1 := toNat_pairLoaded91_cnt hcnt d
  have hacc1 : (s.pairLoaded91 d).acc.toNat = s.acc.toNat + v * 2 ^ s.cnt.toNat :=
    hv ▸ toNat_loaded91 hacc (pair_lt_payload hpend hd) (by omega)
  obtain ⟨units, hdrain, hlength, hvalue⟩ := drainBytes91_units _ (s.pairLoaded91 d) le_rfl
  rw [hv] at hcnt1
  rw [hcnt1] at hlength
  rw [hcnt1, hacc1, ← hlength] at hvalue
  have hleft : (s.pairLoaded91 d).acc >>> (8 * ((s.cnt.toNat + payloadBits v) / 8)) = (s.paired91 v units).acc := by
    apply BitVec.eq_of_toNat_eq
    rw [BitVec.toNat_ushiftRight, hacc1, Nat.shiftRight_eq_div_pow, ← pow256_eq]
    exact (toNat_ofNat_of_lt ((Nat.div_le_self _ _).trans_lt (hacc1 ▸ BitVec.isLt _))).symm
  rw [hdrain, State.drained91, hcnt1, hleft, ← hlength, ← eq_lowBytes_of_littleEndian hvalue]
  rfl

theorem pushDecodeBase91_of_no_symbol {s : State} {c : Byte} (hidx : idx91 s.cfg c = none) :
    pushDecodeBase91 c s = .error ⟨.invalidSymbol, c⟩ := by
  rw [pushDecodeBase91, hidx]

theorem exec_push_of_decoding_base91 {s : State} (hruns : s.runs .decode .base91) {c : Byte}
    (hskip : skippable s.cfg .base91 c = false) : exec (.push c) s = .next (settle s (pushDecodeBase91 c s)) := by
  have ⟨_, _, hmode⟩ := hruns
  have hnot32 : s.mode ≠ .base32 := by rw [hmode]; decide
  rw [exec_push_of_decoding hruns, pushFiltered_of_not_dropped (fun h => absurd h hnot32) (hmode ▸ hskip),
    pushDecode_of_base91 hmode]

/-! ### FLUSH of the decoder (R206) -/

theorem flushDecodeBase91_of_no_pending {s : State} (hpendv : s.pendv = false) :
    flushDecodeBase91 s = .ok { s with acc := 0, cnt := 0 } := by
  rw [flushDecodeBase91, if_neg (by rw [hpendv]; decide)]

/-- A lone last symbol goes above the bits held, of which the low byte is written. -/
theorem flushDecodeBase91_of_pending {s : State} (hacc : s.acc.toNat < 2 ^ s.cnt.toNat) (hpendv : s.pendv = true) :
    flushDecodeBase91 s = .ok { s with
      out := s.out ++ [unit (s.acc.toNat + s.pend.toNat * 2 ^ s.cnt.toNat)]
      pend := 0, pendv := false, acc := 0, cnt := 0 } := by
  rw [flushDecodeBase91, if_pos hpendv, unit_and_255, or_shiftLeft_eq_add hacc]
  rfl

/-! ### The result statements, in a namespace of their own: in `Machine` their names are those of the rules -/

namespace Base91

/-- Settles O31: below 14 bits the byte is held, else its low 13 or 14 bits come out, as the payload width says. -/
theorem pushEncodeBase91 : Obligations.PushEncodeBase91 := by
  intro b s hruns hcnt hacc
  rw [exec_push_of_encoding_base91 hruns]
  refine ⟨fun hfew => ?_, fun hfull hlarge => ?_, fun hfull hsmall => ?_⟩
  · rw [encodePush91_of_few (k := s.packer) hcnt hacc s.cfg hfew]
    rfl
  · rw [encodePush91_of_chunk (k := s.packer) hcnt hacc s.cfg hfull rfl (payloadBits_of_large hlarge)]
    exact congrArg Host.Outcome.next (emitTexts_acc_cnt_eq_emit s _ _ _).symm
  · rw [encodePush91_of_chunk (k := s.packer) hcnt hacc s.cfg hfull rfl (payloadBits_of_small hsmall)]
    exact congrArg Host.Outcome.next (emitTexts_acc_cnt_eq_emit s _ _ _).symm

/-- Settles O32: with bits held the FLUSH writes two symbols, or one where the value of fewer than 8 bits is a digit. -/
theorem flushEncodeBase91 : Obligations.FlushEncodeBase91 := by
  intro s hruns
  rw [exec_flush_of_encoding_base91 hruns]
  refine ⟨fun hzero => ?_, fun hbits htwo => ?_, fun hbits hfew hacc => ?_⟩
  · rw [encodeFlush91_of_empty s.cfg (k := s.packer) hzero]
    rfl
  · rw [encodeFlush91_of_two s.cfg (k := s.packer) hbits htwo]
    exact congrArg (fun t : State => Host.Outcome.next { t with phase := .done })
      (emitTexts_acc_cnt_eq_emit s _ 0 0).symm
  · rw [encodeFlush91_of_one s.cfg (k := s.packer) hbits hfew hacc]
    exact congrArg (fun t : State => Host.Outcome.next { t with phase := .done })
      (emitTexts_acc_cnt_eq_emit s [_] 0 0).symm

/-- Settles O42: no symbol, the first symbol of a pair, and the second, which brings the whole bytes. -/
theorem pushDecodeBase91 : Obligations.PushDecodeBase91 := by
  intro c s hruns hskip hcnt hacc hpend
  rw [exec_push_of_decoding_base91 hruns hskip]
  refine ⟨fun hidx => ?_, fun d hidx hpendv => ?_, fun d hidx hpendv => ?_⟩
  · rw [pushDecodeBase91_of_no_symbol hidx, settle_error]
  · rw [pushDecodeBase91_of_idx91 hidx, if_neg (by rw [hpendv]; decide), settle_ok]
  · rw [pushDecodeBase91_of_idx91 hidx, if_pos hpendv, settle_ok,
      drainBytes91_pairLoaded91 hcnt hacc hpend (idx91_lt s.cfg c d hidx) rfl, State.paired91, payloadBits_eq]
    rfl

/-- Settles O43: a pending symbol completes one byte, and whatever bits are left are dropped. -/
theorem flushDecodeBase91 : Obligations.FlushDecodeBase91 := by
  intro s hruns hacc
  have ⟨_, _, hmode⟩ := hruns
  have hrule := flushDecode_of_base91 hmode
  rw [exec_eq_after]
  refine ⟨fun hpendv => ?_, fun hpendv => ?_⟩
  · rw [after_flush_of_decoding hruns (hrule.trans (flushDecodeBase91_of_pending hacc hpendv))]
    rfl
  · rw [after_flush_of_decoding hruns (hrule.trans (flushDecodeBase91_of_no_pending hpendv))]

end Base91

end Sys2Proof.Machine
end

section
/-! PROOFS. Exceptions (60_exceptions.md): every step answers a next state, a DecodeFault writes its record and nothing
else, which characters INVALID_SYMBOL is raised for, and the fault codes that depend on a parameter. -/

namespace Sys2Proof.Machine

/-! ### Every step answers (R235) -/

theorem step_of_no_port {s : State} (hport : s.port = []) : step s = .next s := by
  unfold step State.nextEvent
  rw [hport]

/-- Settles O9. -/
theorem everyStepAnswersNext : Obligations.EveryStepAnswersNext := fun s => ⟨step_next s, step_of_no_port⟩

/-! ### A DecodeFault is precise (R224) -/

/-- The one effect of a command that enters FAULT is the fault record of a decode PUSH or FLUSH. -/
theorem CommandEffect.fault_of_enters_fault {i : Instr} {s t : State} (h : CommandEffect s i t)
    (hbefore : s.phase ≠ .fault) (hafter : t.phase = .fault) :
    s.phase = .active ∧ s.dir = .decode ∧ ((∃ b, i = .push b) ∨ i = .flush) ∧
      ∃ f : RaisedFault, f.LegalUnder s.cfg ∧ t = raiseDecodeFault f s := by
  cases h with
  | badSequence | reservedMode | lineLength | firstSeparator | secondSeparator => exact absurd hafter hbefore
  | opened | flushed => cases hafter
  | pushed _ hdata => exact absurd (hdata.phase_eq.symm.trans hafter) hbefore
  | faulted hphase hdir hi hlegal => exact ⟨hphase, hdir, hi, _, hlegal, rfl⟩

/-- Settles O16: the fault record is an update of FCODE, FCHAR, FSTICKY and PHASE, and its code is not 0. -/
theorem decodeFaultIsPrecise : Obligations.DecodeFaultIsPrecise := by
  intro i s t hexec hbefore hafter
  obtain ⟨hphase, hdir, hi, f, ⟨hcode, -⟩, rfl⟩ :=
    (commandEffect_of_exec hexec).fault_of_enters_fault hbefore hafter
  exact ⟨hphase, hdir, hi, f.code, f.char, hcode, rfl⟩

/-! ### The codes that need a parameter (R226, R227) -/

/-- FCODE holds the two codes of a parameter only where the parameter asks for the fault. -/
def State.FaultParameters (s : State) : Prop :=
  (s.fcode = .b85Overflow → s.cfg.b85Overflow = .fault) ∧ (s.fcode = .radixRange → s.cfg.radixRange = .fault)

theorem State.FaultParameters.of_fcode_none {s : State} (h : s.fcode = .none) : s.FaultParameters :=
  ⟨fun hcode => (nomatch h.symm.trans hcode), fun hcode => (nomatch h.symm.trans hcode)⟩

/-- The registers other than FCODE have no part in it. -/
theorem State.FaultParameters.of_eq {s t : State} (h : s.FaultParameters) (hfcode : t.fcode = s.fcode)
    (hcfg : t.cfg = s.cfg) : t.FaultParameters := by
  unfold State.FaultParameters
  rw [hfcode, hcfg]
  exact h

theorem DataEffect.fcode_eq {s t : State} (h : DataEffect s t) : t.fcode = s.fcode := by
  obtain ⟨units, ht⟩ := h.eq_update
  rw [ht]

/-- OPEN clears FCODE, a DecodeFault records a legal fault, and no other effect writes FCODE. -/
theorem CommandEffect.faultParameters {i : Instr} {s t : State} (heffect : CommandEffect s i t)
    (h : s.FaultParameters) : t.FaultParameters := by
  cases heffect with
  | badSequence | reservedMode => exact h.of_eq (raiseCmdError_fcode _ s) (raiseCmdError_cfg _ s)
  | opened => exact .of_fcode_none (startInvocation_fcode _ _ s)
  | lineLength | firstSeparator | secondSeparator => exact h.of_eq rfl rfl
  | pushed _ hdata | flushed _ hdata => exact h.of_eq hdata.fcode_eq hdata.cfg_eq
  | faulted _ _ _ hlegal =>
    obtain ⟨-, hparameters⟩ := hlegal
    exact hparameters

/-- Settles O49: RESET clears FCODE, and every command keeps it within the parameters. -/
theorem parameterFaultsNeedTheirParameter : Obligations.ParameterFaultsNeedTheirParameter := by
  refine ⟨⟨nofun, nofun⟩, fun s t hstep hoverflow hrange => ?_⟩
  have h : s.FaultParameters := ⟨hoverflow, hrange⟩
  cases stepEffect_of_step hstep with
  | waited => exact h
  | wasReset => exact State.FaultParameters.of_fcode_none (applyReset_fcode _)
  | illegal => exact h.of_eq (raiseCmdError_fcode _ _) (raiseCmdError_cfg _ _)
  | ran _ _ heffect => exact heffect.faultParameters h

/-! ### R221's table holds the characters that the inverse maps find -/

/-- A radix mode has the digits below its radix. -/
theorem symbolTable_radix_eq_false_iff (cfg : Config) {m : Mode} {r w : Nat} (hm : (m, r, w) ∈ radixModes)
    (c : Byte) : symbolTable cfg m c = false ↔ ∀ d, digitValue c = some d → r ≤ d := by
  refine ⟨fun hfalse d hvalue => ?_, fun hlarge => ?_⟩
  · by_contra hd
    have hcode := (digitValue_eq_some_iff c d).mp hvalue
    simp only [radixModes, List.mem_cons, Prod.mk.injEq, List.not_mem_nil, or_false] at hm
    rcases hm with ⟨rfl, rfl, rfl⟩ | ⟨rfl, rfl, rfl⟩ | ⟨rfl, rfl, rfl⟩ | ⟨rfl, rfl, rfl⟩
    · simp only [symbolTable, Bool.or_eq_false_iff, beq_eq_false_iff_ne] at hfalse
      bv_omega
    all_goals
      simp only [symbolTable, Bool.or_eq_false_iff, Bool.and_eq_false_iff, decide_eq_false_iff_not] at hfalse
      omega
  · by_contra htrue
    obtain ⟨d, hvalue, hd⟩ := digit_of_symbolTable hm (Bool.eq_true_of_not_eq_false htrue)
    exact Nat.not_lt.mpr (hlarge d hvalue) hd

theorem symbolTable_base32_eq_false_iff (cfg : Config) (c : Byte) :
    symbolTable cfg .base32 c = false ↔ idx32 c = none := by
  simp only [symbolTable, Bool.or_eq_false_iff, decide_eq_false_iff_not]
  refine ⟨fun ⟨hletter, hdigit⟩ => ?_, fun hidx => ⟨fun hletter => ?_, fun hdigit => ?_⟩⟩
  · rw [idx32, if_neg hletter, if_neg hdigit]
  · nomatch hidx.symm.trans (if_pos hletter)
  · have hsymbol : idx32 c = some (c.toNat - 0x32 + 26) := (idx32_eq_some_iff c _).mpr (by omega)
    nomatch hidx.symm.trans hsymbol

theorem symbolTable_base85_eq_false_iff (cfg : Config) (c : Byte) :
    symbolTable cfg .base85 c = false ↔ c.toNat < 33 ∨ 117 < c.toNat := by
  simp only [symbolTable, decide_eq_false_iff_not]
  omega

theorem mem_alphanumerics91_iff (c : Byte) :
    c ∈ alphanumerics91 ↔
      (0x41 ≤ c.toNat ∧ c.toNat ≤ 0x5A) ∨ (0x61 ≤ c.toNat ∧ c.toNat ≤ 0x7A) ∨
        (0x30 ≤ c.toNat ∧ c.toNat ≤ 0x39) := by
  have hrun {start n : Nat} (hlow : start ≤ c.toNat) (hhigh : c.toNat < start + n) :
      c ∈ (List.range n).map fun i => unit (start + i) :=
    List.mem_map.mpr ⟨c.toNat - start, List.mem_range.mpr (by omega),
      ((eq_unit_iff (by have := c.isLt; omega)).mpr (by omega)).symm⟩
  refine ⟨toNat_of_mem_alphanumerics91, fun h => ?_⟩
  simp only [alphanumerics91, List.mem_append]
  obtain ⟨hlow, hhigh⟩ | ⟨hlow, hhigh⟩ | ⟨hlow, hhigh⟩ := h
  · exact .inl (.inl (hrun hlow (Nat.lt_succ_of_le hhigh)))
  · exact .inl (.inr (hrun hlow (Nat.lt_succ_of_le hhigh)))
  · exact .inr (hrun hlow (Nat.lt_succ_of_le hhigh))

theorem symbolTable_base91_eq_false_iff (cfg : Config) (c : Byte) :
    symbolTable cfg .base91 c = false ↔ idx91 cfg c = none := by
  rw [idx91, List.idxOf?_eq_none_iff, alphabet91_eq_append, List.mem_append, mem_alphanumerics91_iff,
    ← Bool.not_eq_true]
  simp only [symbolTable, Bool.or_eq_true, decide_eq_true_eq, List.contains_iff_mem, or_assoc]

/-! ### The mode's rule raises INVALID_SYMBOL when its inverse map finds nothing (R145 to R148, R164, R185, R204) -/

theorem radixDecode_eq_invalidSymbol_iff (r w : Nat) (c : Byte) (s : State) :
    radixDecode r w c s = .error ⟨.invalidSymbol, c⟩ ↔ ∀ d, digitValue c = some d → r ≤ d := by
  refine ⟨fun hfault d hvalue => ?_, fun hlarge => radixDecode_of_no_digit hlarge w s⟩
  by_contra hd
  rw [radixDecode, hvalue] at hfault
  dsimp only at hfault
  rw [if_neg hd] at hfault
  split_ifs at hfault
  nomatch hfault

theorem pushDecodeBase32_eq_invalidSymbol_iff {c : Byte} (hpad : c ≠ padChar) (s : State) :
    pushDecodeBase32 c s = .error ⟨.invalidSymbol, c⟩ ↔ idx32 c = none := by
  refine ⟨fun hfault => ?_, fun hidx => pushDecodeBase32_of_no_symbol hpad hidx s⟩
  rw [pushDecodeBase32, if_neg hpad] at hfault
  cases hidx : idx32 c with
  | none => rfl
  | some d =>
    rw [hidx] at hfault
    nomatch hfault

theorem pushDecodeBase85_eq_invalidSymbol_iff {c : Byte} (hz : c ≠ zChar) (s : State) :
    pushDecodeBase85 c s = .error ⟨.invalidSymbol, c⟩ ↔ c.toNat < 33 ∨ 117 < c.toNat := by
  refine ⟨fun hfault => ?_, fun hrange => pushDecodeBase85_of_no_digit hz hrange s⟩
  by_contra hdigit
  have hvalue : value85 c = some (c.toNat - 33) := if_pos (by omega)
  rw [pushDecodeBase85, if_neg hz, hvalue] at hfault
  dsimp only at hfault
  obtain ⟨-, -, hassign⟩ | ⟨-, hassign⟩ :=
    assignAcc85_cases (s.acc.toNat + (c.toNat - 33) * pow85 s.gcnt.toNat) c s
  · rw [hassign] at hfault
    nomatch hfault
  · rw [hassign] at hfault
    dsimp only at hfault
    split_ifs at hfault

theorem pushDecodeBase91_eq_invalidSymbol_iff (c : Byte) (s : State) :
    pushDecodeBase91 c s = .error ⟨.invalidSymbol, c⟩ ↔ idx91 s.cfg c = none := by
  refine ⟨fun hfault => ?_, pushDecodeBase91_of_no_symbol⟩
  cases hidx : idx91 s.cfg c with
  | none => rfl
  | some d =>
    rw [pushDecodeBase91_of_idx91 hidx] at hfault
    split_ifs at hfault

/-- The characters for which a rule raises INVALID_SYMBOL are those outside the mode's ranges. -/
theorem pushDecode_eq_invalidSymbol_iff {c : Byte} {s : State} {m : Mode} (hmode : s.mode = m)
    (hspecial : isSpecial m c = false) :
    pushDecode c s = .error ⟨.invalidSymbol, c⟩ ↔ symbolTable s.cfg m c = false := by
  cases m with
  | base02 | base08 | base10 | base16 =>
    obtain ⟨r, w, hm⟩ : ∃ r w, (s.mode, r, w) ∈ radixModes := by simp [hmode, radixModes]
    obtain ⟨-, -, hrule, -⟩ := radixModes_rules hm
    rw [hrule s c rfl, radixDecode_eq_invalidSymbol_iff, symbolTable_radix_eq_false_iff s.cfg (hmode ▸ hm)]
  | base32 =>
    have hpad : c ≠ padChar := beq_eq_false_iff_ne.mp hspecial
    rw [pushDecode_of_base32 hmode, pushDecodeBase32_eq_invalidSymbol_iff hpad, symbolTable_base32_eq_false_iff]
  | base85 =>
    have hz : c ≠ zChar := beq_eq_false_iff_ne.mp hspecial
    rw [pushDecode_of_base85 hmode, pushDecodeBase85_eq_invalidSymbol_iff hz, symbolTable_base85_eq_false_iff]
  | base91 =>
    rw [pushDecode_of_base91 hmode, pushDecodeBase91_eq_invalidSymbol_iff, symbolTable_base91_eq_false_iff]

/-! ### INVALID_SYMBOL by mode (R221) -/

/-- In ACTIVE a fault record can come only from a rule that raised the fault: a rule that completes stays in ACTIVE. -/
theorem settle_eq_raiseDecodeFault_iff {s : State} {r : Except RaisedFault State} (hphase : s.phase = .active)
    (hresult : DecodeResult s r) (f : RaisedFault) : settle s r = raiseDecodeFault f s ↔ r = .error f := by
  refine ⟨fun hsettle => ?_, fun hr => by rw [hr, settle_error]⟩
  cases r with
  | ok t =>
    have hdata : DataEffect s t := hresult
    have hstays := hdata.phase_eq.trans hphase
    rw [settle_ok] at hsettle
    rw [hsettle] at hstays
    nomatch hstays
  | error g =>
    rw [settle_error] at hsettle
    have hcode : g.code = f.code := congrArg State.fcode hsettle
    have hchar : g.char = f.char := congrArg State.fchar hsettle
    exact congrArg Except.error (congrArg₂ RaisedFault.mk hcode hchar)

/-- After a padding character the Base32 decoder reads nothing (40_control.md R119). -/
theorem pushFiltered_of_padseen {s : State} (hmode : s.mode = .base32) (hseen : s.padseen = true) (c : Byte) :
    pushFiltered c s = s := if_pos ⟨hmode, hseen⟩

/-- Settles O35: the PUSH settles the mode's rule, which raises INVALID_SYMBOL outside the mode's ranges. -/
theorem invalidSymbolByMode : Obligations.InvalidSymbolByMode := by
  refine ⟨fun c s m hruns hpad hskip hspecial => ?_, fun c s hruns hseen => ?_⟩
  · have ⟨hphase, _, hmode⟩ := hruns
    rw [exec_push_of_decoding hruns, pushFiltered_of_not_dropped (hmode ▸ hpad) (hmode ▸ hskip),
      Host.Outcome.next.injEq, ← pushDecode_eq_invalidSymbol_iff hmode hspecial]
    exact settle_eq_raiseDecodeFault_iff hphase (pushDecode_result c s) ⟨.invalidSymbol, c⟩
  · have ⟨_, _, hmode⟩ := hruns
    rw [exec_push_of_decoding hruns, pushFiltered_of_padseen hmode hseen]

end Sys2Proof.Machine
end

section
/-! PROOFS. Reset and hazards (70_reset_and_hazards.md): what RESET clears and what it keeps, the sticky records that
only RESET clears, and which commands may change the configuration. -/

namespace Sys2Proof.Machine

/-! ### RESET (R250) -/

/-- A step on RESET takes it off the port and resets the block. -/
theorem step_of_reset {s : State} {rest : List PortEvent} (hport : s.port = .reset :: rest) :
    step s = .next (applyReset { s with port := rest }) := by
  unfold step State.nextEvent
  rw [hport]

/-- Settles O7. -/
theorem resetKeepsParametersAndPort : Obligations.ResetKeepsParametersAndPort := fun _ _ => step_of_reset

/-- Settles O6: the registers and the views do not read the two fields that RESET keeps, so their values are those
of the reset state. -/
theorem resetClearsEverything : Obligations.ResetClearsEverything :=
  fun _ _ hport => ⟨_, step_of_reset hport, resetValues⟩

/-! ### The sticky records (R32, R230, R260) -/

/-- The sticky records of `s` are still in `t`, and a CMDERR that is new has a code. -/
def StickyKept (s t : State) : Prop :=
  (s.cmderr = true → t.cmderr = true ∧ t.cecode = s.cecode) ∧
    (s.cmderr = false → t.cmderr = true → t.cecode ≠ .none) ∧
    (s.fsticky = true → t.fsticky = true)

/-- The registers other than CMDERR, CECODE and FSTICKY have no part in it. -/
theorem StickyKept.of_eq {s t : State} (hcmderr : t.cmderr = s.cmderr) (hcecode : t.cecode = s.cecode)
    (hfsticky : t.fsticky = s.fsticky) : StickyKept s t := by
  refine ⟨fun hset => ⟨hcmderr.trans hset, hcecode⟩, fun hclear hset => ?_, fun hset => hfsticky.trans hset⟩
  exact absurd (hclear.symm.trans (hcmderr.symm.trans hset)) Bool.false_ne_true

/-- A CmdError keeps the code of the first one (60_exceptions.md R230). -/
theorem raiseCmdError_stickyKept {code : CmdErrorCode} (hcode : code ≠ .none) (s : State) :
    StickyKept s (raiseCmdError code s) := by
  refine ⟨fun hset => ⟨raiseCmdError_cmderr code s, ?_⟩, fun hclear _ => ?_, fun hset => hset⟩
  · rw [raiseCmdError_cecode, if_pos hset]
  · rwa [raiseCmdError_cecode, if_neg (Bool.eq_false_iff.mp hclear)]

/-- A DecodeFault sets FSTICKY and leaves the command-error record alone (60_exceptions.md R224). -/
theorem raiseDecodeFault_stickyKept (f : RaisedFault) (s : State) : StickyKept s (raiseDecodeFault f s) := by
  refine ⟨fun hset => ⟨hset, rfl⟩, fun hclear hset => ?_, fun _ => raiseDecodeFault_fsticky f s⟩
  exact absurd (hclear.symm.trans hset) Bool.false_ne_true

theorem DataEffect.fsticky_eq {s t : State} (h : DataEffect s t) : t.fsticky = s.fsticky := by
  obtain ⟨units, ht⟩ := h.eq_update
  rw [ht]

theorem CommandEffect.stickyKept {i : Instr} {s t : State} (h : CommandEffect s i t) : StickyKept s t := by
  cases h with
  | badSequence | reservedMode => exact raiseCmdError_stickyKept (by decide) s
  | opened | lineLength | firstSeparator | secondSeparator => exact .of_eq rfl rfl rfl
  | pushed _ hdata | flushed _ hdata =>
    obtain ⟨hcmderr, hcecode⟩ := hdata.errorRecord_eq
    exact .of_eq hcmderr hcecode hdata.fsticky_eq
  | faulted => exact raiseDecodeFault_stickyKept _ s

/-- Settles O17: of all a step can do, only RESET clears a sticky record. -/
theorem stickyRecordKept : Obligations.StickyRecordKept := by
  intro s t hstep hnoReset
  cases stepEffect_of_step hstep with
  | waited => exact StickyKept.of_eq rfl rfl rfl
  | wasReset hport => exact absurd (congrArg List.head? hport) hnoReset
  | @illegal _ rest _ _ =>
    exact raiseCmdError_stickyKept (code := .illegalCommand) (by decide) { s with port := rest }
  | ran _ _ heffect => exact heffect.stickyKept

/-! ### The configuration (R27 to R29, R256) -/

def SameConfiguration (s t : State) : Prop :=
  t.llen = s.llen ∧ t.sep0 = s.sep0 ∧ t.sep1 = s.sep1 ∧ t.seplen = s.seplen ∧ t.dir = s.dir ∧ t.mode = s.mode

/-- The configuration of `t` is one that a word, decoded as `d`, may leave behind in the state `s` (R256). -/
def ConfigurationRule (s : State) (d : Except DecodeError Instr) (t : State) : Prop :=
  (s.phase = .active → SameConfiguration s t) ∧
    (t.llen ≠ s.llen → d = .ok (.setll t.llen)) ∧
    ((t.sep0, t.sep1, t.seplen) ≠ (s.sep0, s.sep1, s.seplen) → ∃ sel b, d = .ok (.setsep sel b)) ∧
    ((t.dir, t.mode) ≠ (s.dir, s.mode) → ∃ i, d = .ok i ∧ (i, t.dir, t.mode) ∈ openRows)

/-- Nothing is asked of a word that changes no configuration. -/
theorem SameConfiguration.rule {s t : State} (h : SameConfiguration s t) (d : Except DecodeError Instr) :
    ConfigurationRule s d t := by
  have ⟨hllen, hsep0, hsep1, hseplen, hdir, hmode⟩ := h
  refine ⟨fun _ => h, fun hne => absurd hllen hne, fun hne => absurd ?_ hne, fun hne => absurd ?_ hne⟩
  · rw [hsep0, hsep1, hseplen]
  · rw [hdir, hmode]

theorem raiseCmdError_sameConfiguration (code : CmdErrorCode) (s : State) :
    SameConfiguration s (raiseCmdError code s) := ⟨rfl, rfl, rfl, rfl, rfl, rfl⟩

theorem raiseDecodeFault_sameConfiguration (f : RaisedFault) (s : State) :
    SameConfiguration s (raiseDecodeFault f s) := ⟨rfl, rfl, rfl, rfl, rfl, rfl⟩

theorem DataEffect.sameConfiguration {s t : State} (h : DataEffect s t) : SameConfiguration s t := by
  obtain ⟨units, ht⟩ := h.eq_update
  rw [ht]
  exact ⟨rfl, rfl, rfl, rfl, rfl, rfl⟩

/-- SETLL, SETSEP and an accepted OPEN each change their own part, outside ACTIVE; no other effect changes any. -/
theorem CommandEffect.configurationRule {i : Instr} {s t : State} (h : CommandEffect s i t) :
    ConfigurationRule s (.ok i) t := by
  cases h with
  | badSequence | reservedMode => exact (raiseCmdError_sameConfiguration _ s).rule _
  | faulted => exact (raiseDecodeFault_sameConfiguration _ s).rule _
  | pushed _ hdata | flushed _ hdata => exact hdata.sameConfiguration.rule _
  | opened hrow hphase =>
    exact ⟨fun hp => absurd hp hphase, fun hne => absurd rfl hne, fun hne => absurd rfl hne, fun _ => ⟨i, rfl, hrow⟩⟩
  | lineLength _ hphase =>
    exact ⟨fun hp => absurd hp hphase, fun _ => rfl, fun hne => absurd rfl hne, fun hne => absurd rfl hne⟩
  | firstSeparator b hphase | secondSeparator b hphase =>
    exact ⟨fun hp => absurd hp hphase, fun hne => absurd rfl hne, fun _ => ⟨_, b, rfl⟩, fun hne => absurd rfl hne⟩

/-- Settles O18: an illegal word changes no configuration, and every effect of a command obeys the rule. -/
theorem configurationFixedInActive : Obligations.ConfigurationFixedInActive := by
  intro s t w rest hport hstep
  change ConfigurationRule s (decode w) t
  cases stepEffect_of_step hstep with
  | waited hport' | wasReset hport' => cases hport.symm.trans hport'
  | illegal hport' =>
    cases hport.symm.trans hport'
    have hsame : SameConfiguration s (execIllegal { s with port := rest }) :=
      raiseCmdError_sameConfiguration .illegalCommand { s with port := rest }
    exact hsame.rule _
  | ran hport' hdecode heffect =>
    cases hport.symm.trans hport'
    rw [hdecode]
    exact heffect.configurationRule

end Sys2Proof.Machine
end
